-- ==== Sys2Proof/Word.lean ====
section
/-! DEFINITION. Words and levels of the display driver (00_scope.md R9, R10; 30_encoding.md R104). -/

namespace Sys2Proof

/-- A byte: unsigned, 8 bits, bit 0 least significant (R9). -/
abbrev Byte := BitVec 8

/-- The 16-bit command word `OPW` (R104). -/
abbrev Word := BitVec 16

/-- A line level or a stage of the chain: `false` is 0 (low), `true` is 1 (high) (R10). -/
abbrev Level := Bool

end Sys2Proof
end

