-- ==== Sys2Proof/Config.lean ====
section
/-! DEFINITION. The deployment's configuration record (00_scope.md R6, 10_state.md R35), the default configuration
(43_activation_mask.md R181), and the one free value of the model. -/

namespace Sys2Proof

/-- Display polarity (00_scope.md R14, 30_encoding.md R91). -/
inductive Polarity
  | commonCathode
  | commonAnode
  deriving DecidableEq, Repr

/-- The configuration record of R6: the wiring of one deployment, which no step changes (R5, R35).
`MASKTAB` and `SEL_LINE`, functions on `[0, N-1]` in the spec, are lists of `N` entries (log 10). -/
structure Config where
  /-- `N`, the number of digit positions. -/
  n : Nat
  /-- `POLARITY`, handed to ENCODE by the scanner. -/
  polarity : Polarity
  /-- `M`, the number of select bytes of one scanner transmit. -/
  m : Nat
  /-- `MASKTAB`, one list of `M` bytes for each position (R176). -/
  masktab : List (List Byte)
  /-- `SEL_LINE`, the bit of the select field wired to each position. -/
  selLine : List Nat
  /-- `SEL_ACTIVE`, the level at which a select line makes its digit active. -/
  selActive : Level
  /-- `SEG_FIRST`: is the segment byte shifted before the select bytes? -/
  segFirst : Bool
  /-- `LATCH_TRANSPARENT`: do the outputs follow the stages while LATCH is high (R152)? -/
  latchTransparent : Bool
  /-- `DIGIT_W`, the width of a frame entry in a bit-level realisation; the rules treat an entry as an integer (R6). -/
  digitW : Nat
  deriving DecidableEq, Repr

/-- `K = 1 + M`, the length of the chain in bytes and of every scanner transmit (R6). -/
def Config.k (c : Config) : Nat := 1 + c.m

/-- The default configuration of R181 and D10 for `n` positions (`1 ≤ n ≤ 8`), active-high or active-low.
`LATCH_TRANSPARENT` and `DIGIT_W` have no default in the spec: log 10. -/
def Config.standard (n : Nat) (active : Level) : Config where
  n := n
  polarity := .commonCathode
  m := 1
  masktab := (List.range n).map fun i => [if active then 1#8 <<< i else ~~~(1#8 <<< i)]
  selLine := List.range n
  selActive := active
  segFirst := true
  latchTransparent := false
  digitW := 4

/-- FREE VALUE (log 9). The byte that a stand-alone TRANSMIT takes from an entry of the operand port `TXSEQ` that the
caller did not supply: the spec states none. First argument: the draw counter of State; second: the index. -/
opaque Config.unsetTxByte : Nat → Nat → Byte

end Sys2Proof
end

