-- ==== Sys2Proof/Syntax.lean ====
section
/-! DEFINITION. The operations: one constructor for each row of spec/opcode_table.json (30_encoding.md R100, R105). -/

namespace Sys2Proof

/-- The operation set of R100. `CYCLE` is a pseudo-operation and has no row (R201). -/
inductive Instr
  /-- `SDAT b`: set the data line (R122). -/
  | sdat (b : Level)
  /-- `CLKH`: raise the clock line (R123). -/
  | clkh
  /-- `CLKL`: lower the clock line (R124). -/
  | clkl
  /-- `LATL`: lower the latch line (R125). -/
  | latl
  /-- `LATH`: raise the latch line (R126). -/
  | lath
  /-- `WAIT`: the slot hold (R128). -/
  | wait
  /-- `SHIFTBYTE v` (R129). -/
  | shiftbyte (v : Byte)
  /-- `TRANSMIT L`: the number of bytes taken from `TXSEQ` (R141, R104). -/
  | transmit (len : Nat)
  /-- `ENCODE d, p`: any integer can be presented (R165). -/
  | encode (d : Int) (p : Polarity)
  /-- `ACTMASK i` (R177). -/
  | actmask (i : Nat)
  /-- `SLOT`: one digit slot (R197). -/
  | slot
  /-- `RUN` (R203). -/
  | run
  /-- `STOP` (R208). -/
  | stop
  deriving DecidableEq, Repr

/-- The internal operations, which only the block's own sequencer performs: the micro-operations and SLOT (R101). -/
def Instr.internal : Instr → Bool
  | .sdat _ => true
  | .clkh => true
  | .clkl => true
  | .latl => true
  | .lath => true
  | .wait => true
  | .shiftbyte _ => false
  | .transmit _ => false
  | .encode _ _ => false
  | .actmask _ => false
  | .slot => true
  | .run => false
  | .stop => false

end Sys2Proof
end

