-- ==== Sys2Proof/WellFormed.lean ====
section
/-! DEFINITION. Which operations have a command word: the operand fits the 8-bit immediate (30_encoding.md R104). -/

namespace Sys2Proof

/-- The operand fits the field that R104 gives it. An operation that does not can still be presented to `exec`
(ENCODE of a negative integer is one, R165). -/
def Instr.wellFormed : Instr → Bool
  | .sdat _ => true
  | .clkh => true
  | .clkl => true
  | .latl => true
  | .lath => true
  | .wait => true
  | .shiftbyte _ => true
  | .transmit len => decide (len < 256)
  | .encode d _ => decide (0 ≤ d ∧ d < 256)
  | .actmask i => decide (i < 256)
  | .slot => true
  | .run => true
  | .stop => true

end Sys2Proof
end

