-- ==== Sys2Proof/Decode.lean ====
section
/-! DEFINITION. The command word: decoder and encoder (30_encoding.md R104, R105, R106). -/

namespace Sys2Proof

/-- Why a word is reserved (R106). -/
inductive Reject
  /-- The operation number is in no row of R105. -/
  | reservedOp (op : Byte)
  /-- A listed zero-immediate operation with an immediate that is not zero. -/
  | immediateNotZero (op imm : Byte)
  /-- SDAT with any of `imm8[7:1]` set. -/
  | sdatImmediate (imm : Byte)
  deriving DecidableEq, Repr

/-- `W[15:8]`, the operation number (R104). -/
def opField (w : Word) : Byte := w.extractLsb' 8 8

/-- `W[7:0]`, the 8-bit immediate (R104). -/
def immField (w : Word) : Byte := w.extractLsb' 0 8

/-- A row whose immediate must be zero (R104, R106). -/
def zeroImm (op imm : Byte) (i : Instr) : Except Reject Instr :=
  if imm = 0#8 then .ok i else .error (.immediateNotZero op imm)

/-- The decoder on the two fields, row by row of R105. -/
def decodeFields (op imm : Byte) : Except Reject Instr :=
  if op = 0x01#8 then
    if imm = 0#8 then .ok (.sdat false) else if imm = 1#8 then .ok (.sdat true) else .error (.sdatImmediate imm)
  else if op = 0x02#8 then zeroImm op imm .clkh
  else if op = 0x03#8 then zeroImm op imm .clkl
  else if op = 0x04#8 then zeroImm op imm .latl
  else if op = 0x05#8 then zeroImm op imm .lath
  else if op = 0x06#8 then zeroImm op imm .wait
  else if op = 0x10#8 then .ok (.shiftbyte imm)
  else if op = 0x11#8 then .ok (.transmit imm.toNat)
  else if op = 0x20#8 then .ok (.encode (imm.toNat : Int) .commonCathode)
  else if op = 0x21#8 then .ok (.encode (imm.toNat : Int) .commonAnode)
  else if op = 0x30#8 then .ok (.actmask imm.toNat)
  else if op = 0x40#8 then zeroImm op imm .slot
  else if op = 0x42#8 then zeroImm op imm .run
  else if op = 0x43#8 then zeroImm op imm .stop
  else .error (.reservedOp op)

/-- The decoder, total on 16-bit words: an operation, or a named reason why the word is reserved (R105, R106). -/
def decode (w : Word) : Except Reject Instr := decodeFields (opField w) (immField w)

/-- A word from its two fields (R104). -/
def opWord (op imm : Byte) : Word := op ++ imm

/-- The number of a polarity in field `p` (R91, D27). -/
def Polarity.code : Polarity → Nat
  | .commonCathode => 0
  | .commonAnode => 1

/-- The encoder: the command word of an operation (R105); it means something for a well-formed one. -/
def encode : Instr → Word
  | .sdat b => opWord 0x01#8 (if b then 1#8 else 0#8)
  | .clkh => opWord 0x02#8 0#8
  | .clkl => opWord 0x03#8 0#8
  | .latl => opWord 0x04#8 0#8
  | .lath => opWord 0x05#8 0#8
  | .wait => opWord 0x06#8 0#8
  | .shiftbyte v => opWord 0x10#8 v
  | .transmit len => opWord 0x11#8 (BitVec.ofNat 8 len)
  | .encode d p => opWord (0x20#8 + BitVec.ofNat 8 p.code) (BitVec.ofInt 8 d)
  | .actmask i => opWord 0x30#8 (BitVec.ofNat 8 i)
  | .slot => opWord 0x40#8 0#8
  | .run => opWord 0x42#8 0#8
  | .stop => opWord 0x43#8 0#8

/-- The match and mask of an operation's row in R105: a word `W` is of the row when `W &&& mask = match`. -/
def rowOf : Instr → Word × Word
  | .sdat _ => (0x0100#16, 0xFFFE#16)
  | .clkh => (0x0200#16, 0xFFFF#16)
  | .clkl => (0x0300#16, 0xFFFF#16)
  | .latl => (0x0400#16, 0xFFFF#16)
  | .lath => (0x0500#16, 0xFFFF#16)
  | .wait => (0x0600#16, 0xFFFF#16)
  | .shiftbyte _ => (0x1000#16, 0xFF00#16)
  | .transmit _ => (0x1100#16, 0xFF00#16)
  | .encode _ _ => (0x2000#16, 0xFE00#16)
  | .actmask _ => (0x3000#16, 0xFF00#16)
  | .slot => (0x4000#16, 0xFFFF#16)
  | .run => (0x4200#16, 0xFFFF#16)
  | .stop => (0x4300#16, 0xFFFF#16)

/-- The thirteen rows of R105 as `(match, mask)` pairs, in the table's order. -/
def opcodeRows : List (Word × Word) :=
  [(0x0100#16, 0xFFFE#16), (0x0200#16, 0xFFFF#16), (0x0300#16, 0xFFFF#16), (0x0400#16, 0xFFFF#16),
   (0x0500#16, 0xFFFF#16), (0x0600#16, 0xFFFF#16), (0x1000#16, 0xFF00#16), (0x1100#16, 0xFF00#16),
   (0x2000#16, 0xFE00#16), (0x3000#16, 0xFF00#16), (0x4000#16, 0xFFFF#16), (0x4200#16, 0xFFFF#16),
   (0x4300#16, 0xFFFF#16)]

/-- The operation this decoder reads from a word numbered as spec/opcode_table.json numbers its bits.
The command word is one 16-bit word with no byte order (20_memory.md R69). -/
def decodeTableWord (nbits w : Nat) : Option Instr :=
  if w % 2 ^ nbits < 2 ^ 16 then
    match decode (BitVec.ofNat 16 (w % 2 ^ nbits)) with
    | .ok i => some i
    | .error _ => none
  else none

end Sys2Proof
end

