-- ==== Sys2Proof/Machine/State.lean ====
section
/-! DEFINITION. The state of the machine, its reset, and the reasons a step can stop
(10_state.md; INVENTORY.md, State). -/

namespace Sys2Proof.Machine

/-- The three output lines (R21). -/
inductive Line
  | data
  | clock
  | latch
  deriving DecidableEq, Repr

/-- The sequencer phase `PH`, the block's program counter (R29, R11). -/
inductive Phase
  | idle
  | poll
  | fetch
  | latl
  | sdat
  | clkh
  | clkl
  | lath
  | wait
  deriving DecidableEq, Repr

/-- `MODE` (R31). -/
inductive Mode
  | stopped
  | scanning
  deriving DecidableEq, Repr

/-- The two fault kinds that reach the block (R230). The `FAULT` register is an `Option` of it; `none` is `None`. -/
inductive FaultKind
  | invalidDigit
  | pinFault
  deriving DecidableEq, Repr

/-- What an operation returned to the caller (R36, R240). -/
inductive Status
  | ok
  | err (k : FaultKind)
  deriving DecidableEq, Repr

/-- The operation in progress, when there is one (R214, R240; log 14). -/
inductive Oper
  | shiftByte
  | transmit
  | run
  deriving DecidableEq, Repr

/-- The event alphabet (R12). -/
inductive Event
  /-- `W(p, l)`: a pin write, successful or not. -/
  | w (p : Line) (l : Level)
  /-- `RD(i, v)`: a frame read. -/
  | rd (i : Nat) (v : Int)
  /-- `POLL(b)`: a sample of the stop request. -/
  | poll (b : Bool)
  /-- `SLEEP(d)`: the start of a slot wait of `d` seconds. -/
  | sleep (d : Rat)
  /-- `FAULT(k)`: the raising of a fault. -/
  | fault (k : FaultKind)
  deriving DecidableEq, Repr

/-- An answer of the pin abstraction to one pin write (R22 e, R236): done, or failed with the line left at the drawn
level `x` (R121). -/
inductive PinAnswer
  | ok
  | fail (x : Level)
  deriving DecidableEq, Repr

/-- One turn of one agent (R20; log 2). -/
inductive Act
  /-- The block's sequencer takes its step. -/
  | block
  /-- The caller issues a command word at the command port (R104). -/
  | issue (w : Word)
  /-- The caller performs `MemWrite(FRAME, i, v)` (R11, R61). -/
  | writeFrame (i : Nat) (v : Int)
  /-- The caller writes `STOP_REQ` (R33, R208). -/
  | writeStop (b : Bool)
  /-- The caller sets the operand port `TXSEQ` (R103). That it may while the block is Scanning or a stand-alone operation
  is in progress is the model's choice (log 19). -/
  | writeTxseq (bs : List Byte)
  /-- The caller sets the operand port `REFRESH_HZ` (R103, R204). That it may while a stand-alone operation is in progress
  is the model's choice (log 19). -/
  | writeRefreshHz (hz : Rat)
  /-- The time source advances `NOW` by `d` milliseconds (R49, R250). -/
  | tick (d : Nat)
  deriving DecidableEq, Repr

/-- An addressed store in canonical form: `(index, entry)` pairs. The frame store is the one store that is written by
index (R60, R61); an index that is not listed has not been written (R267; log 6). -/
abbrev Memory := List (Nat × Int)

/-- The state: every piece of state of 10_state.md, the configuration record, and the model's own three fields
`sched`, `pins` and `draws`. -/
structure State where
  /-- The configuration record (R6, R35); no step changes it. -/
  cfg : Config
  /-- `DATA` (R21, R47). -/
  data : Level
  /-- `CLOCK` (R21, R47). -/
  clock : Level
  /-- `LATCH` (R21, R47). -/
  latch : Level
  /-- `SH`, the shift stages, stage 0 (nearest the block) first (R44). -/
  sh : List Level
  /-- `OUT`, the parallel outputs, output 0 first (R44). -/
  out : List Level
  /-- `POS` (R24, R25). -/
  pos : Nat
  /-- `TXBUF` (R24, R26). -/
  txbuf : List Byte
  /-- `BYTEIDX` (R24, R26). -/
  byteidx : Nat
  /-- `BITIDX` (R24, R26). -/
  bitidx : Nat
  /-- `T0` (R24, R27). -/
  t0 : Nat
  /-- `SLOTDUR`, in seconds (R24, R27). -/
  slotdur : Rat
  /-- `RES` (R24, R28). -/
  res : List Byte
  /-- `PH` (R29). -/
  ph : Phase
  /-- `MODE` (R31). -/
  mode : Mode
  /-- `FAULT` (R32). -/
  fault : Option FaultKind
  /-- `STOP_REQ` (R33). -/
  stopReq : Bool
  /-- The operation in progress (R214; log 14). -/
  oper : Option Oper
  /-- The status the last operation returned; `none` while one is in progress and before the first (R36; log 14). -/
  status : Option Status
  /-- `FRAME` (R61). -/
  frame : Memory
  /-- `TXSEQ` (R103). -/
  txseq : List Byte
  /-- `REFRESH_HZ` (R103, R204). -/
  refreshHz : Rat
  /-- `NOW`, in milliseconds (R49). -/
  now : Nat
  /-- `TRACE`, oldest event first (R48). -/
  trace : List Event
  /-- MODEL's own: the turns to come; when it is empty the block has every turn (log 2). -/
  sched : List Act
  /-- MODEL's own: the pin-fault oracle's answers to the pin writes to come; when it is empty they succeed (log 3). -/
  pins : List PinAnswer
  /-- MODEL's own: the counter `Config.unsetTxByte` is applied to (log 9). -/
  draws : Nat
  deriving DecidableEq, Repr

/-- Why the machine stops with a fault: an access to a store entry that the spec says does not exist (R60; log 18). These
are stops of the model and none of the block's faults, which are `FaultKind` (R230). -/
inductive Fault
  /-- A frame index outside `[0, N-1]` (R60, R83): raised by a caller's frame write, and by the FETCH phase in a state
  with `POS >= N`, which no run reaches (R52 a). Safe: the machine stops where the spec gives no access. -/
  | noSuchFrameEntry
  /-- `TXBUF[BYTEIDX]` with `BYTEIDX >= len(TXBUF)` (R24): raised by the SDAT phase in a state no run reaches (R52 b).
  Safe: as above. -/
  | noSuchTxByte
  deriving DecidableEq, Repr

/-- Why an operation has no meaning: the spec says refused, "no meaning at all and no fault kind" (R235). All are safe:
the machine stops and nothing is proved of it. -/
inductive Refusal
  /-- An arm of `exec` that has no meaning yet; raised by `exec` alone. -/
  | notModelled (mnemonic : String)
  /-- A reserved command word (R106): raised by the command port. -/
  | reservedWord (r : Reject)
  /-- A word that names an internal operation, at the caller's command port (R101, R106): raised by the command port. -/
  | internalAtPort
  /-- RUN, TRANSMIT, SHIFTBYTE, ENCODE or ACTMASK while `MODE = Scanning` (R246). -/
  | whileScanning
  /-- The same five while a stand-alone operation is in progress (R210, R221; log 13). -/
  | operationInProgress
  /-- An operation that would write a line while `FAULT = PinFault` (R243, R144): RUN, TRANSMIT, SHIFTBYTE and the pin
  micro-operations (log 17). -/
  | pinFaultSticky
  /-- RUN with `REFRESH_HZ <= 0` (R204). -/
  | refreshNotPositive
  /-- `ACTMASK i` with `i >= N` (R177). -/
  | positionOutOfRange
  /-- Any step under a configuration that is not well-formed, and RUN (R35, R178, R203; log 11). -/
  | configIllFormed
  /-- The FETCH phase reads a frame entry nothing has written (R267, U19; log 6). -/
  | frameEntryUnwritten
  deriving DecidableEq, Repr

/-- What a step or an operation answers. -/
abbrev Outcome := Host.Outcome State Fault Refusal

/-- The state before the caller's first operation (R50, R260). Where R50 says unspecified, and for the ports and the
model's own fields, the values are the model's choice: log 2, 3, 5 to 10, 14. -/
def State.reset : State where
  cfg := Config.standard 4 true
  data := false
  clock := false
  latch := true
  sh := List.replicate 16 false
  out := List.replicate 16 false
  pos := 0
  txbuf := []
  byteidx := 0
  bitidx := 0
  t0 := 0
  slotdur := 1
  res := []
  ph := .idle
  mode := .stopped
  fault := none
  stopReq := false
  oper := none
  status := none
  frame := []
  txseq := []
  refreshHz := 50
  now := 0
  trace := []
  sched := []
  pins := []
  draws := 0

end Sys2Proof.Machine
end

