-- ==== Sys2Proof/Machine/Flags.lean ====
section
/-! DEFINITION. The one flag register, `FAULT`: its two updates and its codes (10_state.md R32, 60_exceptions.md R234).
There is no carry, zero, overflow or sign flag (R32). -/

namespace Sys2Proof.Machine

/-- `FAULT <- None` at RUN entry and at the entry of a stand-alone ENCODE, "but only if it is not PinFault" (R32, R203,
R165). -/
def clearedFault (f : Option FaultKind) : Option FaultKind :=
  if f = some .pinFault then some .pinFault else none

/-- `FAULT <- k` of `raise k` (R240), with PinFault sticky until reset (R32, R243, R262; log 4). -/
def raisedFault (k : FaultKind) (f : Option FaultKind) : Option FaultKind :=
  if f = some .pinFault then some .pinFault else some k

/-- The code of the `FAULT` register in a binary realisation (R234). -/
def faultCode : Option FaultKind → Nat
  | none => 0
  | some .invalidDigit => 1
  | some .pinFault => 2

end Sys2Proof.Machine
end

