-- ==== Sys2Proof/Machine/Ops.lean ====
section
/-! DEFINITION. The shared operations: events, lines and the chain, the pin write, taking a fault and completing an
operation, admission, and the frame store. -/

namespace Sys2Proof.Machine

/-! ### Events -/

/-- `emit e`: append an event to the trace (R11, R48). -/
def State.emit (e : Event) (s : State) : State := { s with trace := s.trace ++ [e] }

/-! ### Faults: entry and completion -/

/-- `raise k`, the whole of the block's trap entry (R240): the event, `FAULT`, `MODE`, `PH`, and the operation in
progress ends and returns `Err(k)`. Nothing is saved and nothing else is changed. -/
def raise (k : FaultKind) (s : State) : State :=
  { s with
    trace := s.trace ++ [.fault k]
    fault := raisedFault k s.fault
    mode := .stopped
    ph := .idle
    oper := none
    status := some (.err k) }

/-- An operation ends without a fault and returns Ok: `PH <- IDLE`, `MODE <- Stopped` (R211, R214, R215). It is the
only way back from an operation besides `raise`; there is no return-from-fault operation (R242). -/
def complete (s : State) : State :=
  { s with mode := .stopped, ph := .idle, oper := none, status := some .ok }

/-! ### Lines and chain -/

/-- The present level of a line (R21). -/
def State.level (p : Line) (s : State) : Level :=
  match p with
  | .data => s.data
  | .clock => s.clock
  | .latch => s.latch

/-- `level[p] <- l` (R121). -/
def State.setLevel (p : Line) (l : Level) (s : State) : State :=
  match p with
  | .data => { s with data := l }
  | .clock => { s with clock := l }
  | .latch => { s with latch := l }

/-- One shift of the stages: stage 0 takes `d`, every other stage the content of the stage before it, and the bit of
the last stage is lost (R150). -/
def shiftIn (d : Level) (sh : List Level) : List Level := (d :: sh).take sh.length

/-- The chain's reaction to a rising edge of CLOCK (R150, and R152 for a transparent latch). -/
def clockEdge (s : State) : State :=
  { s with
    sh := shiftIn s.data s.sh
    out := if s.cfg.latchTransparent && s.latch then shiftIn s.data s.sh else s.out }

/-- The chain's reaction to a rising edge of LATCH: all outputs at once (R151, R72). -/
def latchEdge (s : State) : State := { s with out := s.sh }

/-- `ChainReact(p, old, new)`: only the rising edges of CLOCK and of LATCH do anything (R150, R151). -/
def chainReact (p : Line) (old new : Level) (s : State) : State :=
  match p with
  | .data => s
  | .clock => if !old && new then clockEdge s else s
  | .latch => if !old && new then latchEdge s else s

/-- The line takes level `l` and the chain has reacted to it before anything else happens (R121, R76). -/
def drive (p : Line) (l : Level) (s : State) : State := chainReact p (s.level p) l (s.setLevel p l)

/-! ### The pin write -/

/-- The oracle's answer to the next pin write (R236; log 3). -/
def State.pinAnswer (s : State) : PinAnswer := s.pins.headD .ok

/-- The attempt of a pin write: an event whether or not it succeeds (R121); the oracle's answer is used up. -/
def State.attempt (p : Line) (l : Level) (s : State) : State :=
  { s with trace := s.trace ++ [.w p l], pins := s.pins.tail }

/-- `PinWrite(p, l)` (R121). On failure the line takes the drawn level, the chain reacts to it, and PinFault is
raised. -/
def pinWrite (p : Line) (l : Level) (s : State) : State :=
  match s.pinAnswer with
  | .ok => drive p l (s.attempt p l)
  | .fail x => raise .pinFault (drive p x (s.attempt p l))

/-- A pin micro-operation: one pin write (R127), refused once a pin fault has occurred (R144, R243; log 17). -/
def pinOp (p : Line) (l : Level) (s : State) : Outcome :=
  if s.fault = some .pinFault then .refused .pinFaultSticky else .next (pinWrite p l s)

/-! ### Admission (R246) -/

/-- An operation the caller may issue only while the block is stopped and idle (R101, R246, R210). -/
def whenIdle (s : State) (o : Outcome) : Outcome :=
  if s.mode = .scanning then .refused .whileScanning
  else if s.ph = .idle then o
  else .refused .operationInProgress

/-- An operation that writes lines is refused while `FAULT = PinFault` (R243). -/
def unlessPinFault (s : State) (o : Outcome) : Outcome :=
  if s.fault = some .pinFault then .refused .pinFaultSticky else o

/-- Continue with `f` after a pin micro-operation, unless it raised PinFault: then the operation in progress has ended
(R214, R240). -/
def proceed (o : Outcome) (f : State → Outcome) : Outcome :=
  match o with
  | .next t => if t.fault = some .pinFault then .next t else f t
  | .fault r => .fault r
  | .refused r => .refused r

/-! ### The frame store -/

/-- Read of one whole entry; `none` when nothing has written it (R61, R71; log 6). -/
def Memory.read : Memory → Nat → Option Int
  | [], _ => none
  | (j, v) :: rest, i => if j = i then some v else Memory.read rest i

/-- Write of one whole entry, keeping the positions in rising order. -/
def Memory.write : Memory → Nat → Int → Memory
  | [], i, v => [(i, v)]
  | (j, w) :: rest, i, v =>
    if i < j then (i, v) :: (j, w) :: rest
    else if i = j then (i, v) :: rest
    else (j, w) :: Memory.write rest i v

/-- The canonical form of a frame store with `n` entries: positions strictly rising, each below `n`. -/
def Memory.wf (n : Nat) (f : Memory) : Bool :=
  decide ((f.map Prod.fst).Pairwise (· < ·)) && f.all fun c => decide (c.1 < n)

end Sys2Proof.Machine
end

