-- ==== Sys2Proof/Machine/Operands.lean ====
section
/-! DEFINITION. Operand assembly (30_encoding.md R98): the data bit of a byte, the segment pattern, the scanner's byte
sequence, the select bytes, the bytes of `TXSEQ`, and the slot duration. -/

namespace Sys2Proof.Machine

/-- The `i`-th transmitted bit of a byte, `v[7-i] = (v >> (7-i)) & 1` (R98 a, R67). -/
def dataBit (v : Byte) (i : Nat) : Level := v.getLsbD (7 - i)

/-- The bit the SDAT phase puts on DATA, `TXBUF[BYTEIDX][7-BITIDX]` (R24, R214). -/
def State.txBit (s : State) : Option Level := (s.txbuf[s.byteidx]?).map fun v => dataBit v s.bitidx

/-- `SEGTAB`, the common-cathode table (R161). -/
def segtab : List Byte :=
  [0x3F#8, 0x06#8, 0x5B#8, 0x4F#8, 0x66#8, 0x6D#8, 0x7D#8, 0x07#8, 0x7F#8, 0x6F#8]

/-- The result of `ENCODE d, p`: `none` is InvalidDigit (R165, R166); common anode is the 8-bit one's complement
(R164). -/
def segPattern (d : Int) (p : Polarity) : Option Byte :=
  if d < 0 ∨ 9 < d then none
  else
    match p with
    | .commonCathode => some (segtab.getD d.toNat 0#8)
    | .commonAnode => some (~~~(segtab.getD d.toNat 0#8))

/-- `MASKTAB(i)`, the select bytes of a position (R176). -/
def maskOf (c : Config) (i : Nat) : List Byte := c.masktab.getD i []

/-- The scanner's byte sequence (R96, R194). -/
def slotSeq (c : Config) (pattern : Byte) (mask : List Byte) : List Byte :=
  if c.segFirst then [pattern] ++ mask else mask ++ [pattern]

/-- Byte `j` of the operand port, or the free value of log 9 where the caller supplied none. -/
def txseqByte (bs : List Byte) (draw j : Nat) : Byte := (bs[j]?).getD (Config.unsetTxByte draw j)

/-- The `len` bytes a stand-alone TRANSMIT takes from `TXSEQ` (R103, R141). -/
def txseqBytes (bs : List Byte) (draw len : Nat) : List Byte := (List.range len).map (txseqByte bs draw)

/-- `slotDuration = 1 / (refreshHz * N)` for a positive `refreshHz`, exact (R204, R222 b): with `refreshHz = p/q` it is
`q / (p * N)`. -/
def slotDuration (hz : Rat) (n : Nat) : Rat := mkRat hz.den (hz.num.toNat * n)

/-- `NOW - T0 >= 1000 * SLOTDUR`, compared exactly over the denominator of `SLOTDUR` (R128, R216, R222 b). -/
def State.holdOver (s : State) : Bool :=
  decide (1000 * s.slotdur.num ≤ ((s.now : Int) - (s.t0 : Int)) * (s.slotdur.den : Int))

end Sys2Proof.Machine
end

