-- ==== Sys2Proof/Machine/ActivationMask.lean ====
section
/-! DEFINITION. The activation-mask decoder: ACTMASK (43_activation_mask.md). -/

namespace Sys2Proof.Machine

/-- `ACTMASK i` issued by the caller: completes within the issuing step (R210) with `MASKTAB(i)` in `RES`; a position
outside `[0, N-1]` is refused, no fault kind exists for it (R177). -/
def execActmask (i : Nat) (s : State) : Outcome :=
  whenIdle s <|
    if i < s.cfg.n then .next { s with res := maskOf s.cfg i, status := some .ok }
    else .refused .positionOutOfRange

end Sys2Proof.Machine
end

