-- ==== Sys2Proof/Machine/BitSerializer.lean ====
section
/-! DEFINITION. BitSerializer: the micro-operations and SHIFTBYTE (40_bit_serializer.md). -/

namespace Sys2Proof.Machine

/-- `SDAT b`: `PinWrite(DATA, b)` (R122). -/
def execSdat (b : Level) (s : State) : Outcome := pinOp .data b s

/-- `CLKH`: `PinWrite(CLOCK, 1)` (R123). -/
def execClkh (s : State) : Outcome := pinOp .clock true s

/-- `CLKL`: `PinWrite(CLOCK, 0)` (R124). -/
def execClkl (s : State) : Outcome := pinOp .clock false s

/-- `LATL`: `PinWrite(LATCH, 0)` (R125). -/
def execLatl (s : State) : Outcome := pinOp .latch false s

/-- `LATH`: `PinWrite(LATCH, 1)` (R126). -/
def execLath (s : State) : Outcome := pinOp .latch true s

/-- `WAIT`: emit `SLEEP(SLOTDUR)`, `T0 <- NOW`, and hold in phase WAIT (R128, R215); the hold ends by `holdStep`. -/
def execWait (s : State) : Outcome :=
  .next { s with trace := s.trace ++ [.sleep s.slotdur], t0 := s.now, ph := .wait }

/-- `SHIFTBYTE v` issued by the caller: the step that leaves IDLE (R210). The 24 pin writes of R129 are the
sequencer's steps from phase SDAT on, one event each (R13, R214; log 1). -/
def execShiftbyte (v : Byte) (s : State) : Outcome :=
  whenIdle s <| unlessPinFault s <|
    .next { s with txbuf := [v], byteidx := 0, bitidx := 0, ph := .sdat, oper := some .shiftByte, status := none }

end Sys2Proof.Machine
end

