-- ==== Sys2Proof/Machine/Wiring.lean ====
section
/-! DEFINITION. The select field and the well-formedness of a configuration (30_encoding.md R97, 43_activation_mask.md
R178, 00_scope.md R6). -/

namespace Sys2Proof.Machine

/-- Field bit `b` of an activation mask: bit `b mod 8` of byte `b div 8` (R97). -/
def fieldBit (mask : List Byte) (b : Nat) : Level := (mask.getD (b / 8) 0#8).getLsbD (b % 8)

/-- `SEL_LINE(j)` (R6). -/
def selLineOf (c : Config) (j : Nat) : Nat := c.selLine.getD j 0

/-- Does entry `i` of `MASKTAB` make position `j` active (R97)? -/
def maskActivates (c : Config) (i j : Nat) : Bool := fieldBit (maskOf c i) (selLineOf c j) == c.selActive

/-- `WF` of R178, with the ranges of R6. A configuration that fails it is refused (R35). -/
def configWf (c : Config) : Bool :=
  decide (1 ≤ c.n) && decide (1 ≤ c.m) && decide (c.n ≤ 8 * c.m) && decide (4 ≤ c.digitW)
    && decide (c.masktab.length = c.n) && c.masktab.all (fun e => decide (e.length = c.m))
    && decide (c.selLine.length = c.n) && c.selLine.all (fun b => decide (b < 8 * c.m))
    && (List.range c.n).all (fun i => (List.range c.n).all fun j => maskActivates c i j == decide (i = j))

end Sys2Proof.Machine
end

