-- ==== Sys2Proof/Machine/DigitMultiplexer.lean ====
section
/-! DEFINITION. DigitMultiplexer: SLOT, RUN, STOP and the steps of a slot that are not pin writes
(44_digit_multiplexer.md). -/

namespace Sys2Proof.Machine

/-- `SLOT`: the first event of a digit slot, the poll (R197, R211). A request seen ends the run with Ok; otherwise the
slot goes on with FETCH. The rest of the slot is the sequencer's steps of R212 to R216 (log 1). -/
def execSlot (s : State) : Outcome :=
  .next (if s.stopReq then complete (s.emit (.poll s.stopReq))
    else { s.emit (.poll s.stopReq) with ph := .fetch })

/-- Phase FETCH: read, encode, look up the mask and build `TXBUF`, one step (R212); an invalid digit aborts the run
before any pin write of the slot. An entry nothing has written refuses (R267; log 6). -/
def fetchStep (s : State) : Outcome :=
  if s.pos < s.cfg.n then
    match Memory.read s.frame s.pos with
    | none => .refused .frameEntryUnwritten
    | some v =>
      match segPattern v s.cfg.polarity with
      | none => .next (raise .invalidDigit (s.emit (.rd s.pos v)))
      | some q =>
        .next { s.emit (.rd s.pos v) with
          txbuf := slotSeq s.cfg q (maskOf s.cfg s.pos)
          byteidx := 0
          bitidx := 0
          ph := .latl }
  else .fault .noSuchFrameEntry

/-- Phase WAIT: when the hold is over, `POS <- (POS + 1) mod N` and the next slot; until then the block does nothing
(R216, R25). -/
def holdStep (s : State) : State :=
  if s.holdOver then { s with pos := (s.pos + 1) % s.cfg.n, ph := .poll } else s

/-- `RUN`, issued by the caller: the assignments before the loop (R203, R210). Admitted when stopped and idle, without
a PinFault, with a positive rate and a well-formed configuration (R203, R246). -/
def execRun (s : State) : Outcome :=
  whenIdle s <| unlessPinFault s <|
    if s.refreshHz.num ≤ 0 then .refused .refreshNotPositive
    else if configWf s.cfg then
      .next { s with
        fault := clearedFault s.fault
        mode := .scanning
        slotdur := slotDuration s.refreshHz s.cfg.n
        pos := 0
        ph := .poll
        oper := some .run
        status := none }
    else .refused .configIllFormed

/-- `STOP`: `STOP_REQ <- 1`, admitted at any time (R208). -/
def execStop (s : State) : Outcome := .next { s with stopReq := true }

end Sys2Proof.Machine
end

