-- ==== Sys2Proof/Machine/SegmentEncoder.lean ====
section
/-! DEFINITION. SegmentEncoder: ENCODE (42_segment_encoder.md). The table is in Machine/Operands.lean. -/

namespace Sys2Proof.Machine

/-- `ENCODE d, p` issued by the caller: completes within the issuing step (R210). It clears `FAULT` at entry unless it
is PinFault (R32), then leaves the byte in `RES`, or raises InvalidDigit with `RES` not written (R165, R166). -/
def execEncode (d : Int) (p : Polarity) (s : State) : Outcome :=
  whenIdle s <|
    match segPattern d p with
    | some q => .next { s with fault := clearedFault s.fault, res := [q], status := some .ok }
    | none => .next (raise .invalidDigit { s with fault := clearedFault s.fault })

end Sys2Proof.Machine
end

