-- ==== Sys2Proof/Machine/ShiftRegisterBus.lean ====
section
/-! DEFINITION. ShiftRegisterBus: TRANSMIT (41_shift_register_bus.md). The chain's reaction is in Machine/Ops.lean. -/

namespace Sys2Proof.Machine

/-- `TRANSMIT L` issued by the caller: the step that leaves IDLE (R210), with the bytes of `TXSEQ` (R103). The pin
writes of R141 are the sequencer's steps from phase LATL on, one event each (R13, R213 to R215; log 1). Any length is
legal, 0 included (R107, R145, R154). -/
def execTransmit (len : Nat) (s : State) : Outcome :=
  whenIdle s <| unlessPinFault s <|
    .next { s with
      txbuf := txseqBytes s.txseq s.draws len
      draws := s.draws + 1
      byteidx := 0
      bitidx := 0
      ph := .latl
      oper := some .transmit
      status := none }

end Sys2Proof.Machine
end

