-- ==== Sys2Proof/Machine/Dispatch.lean ====
section
/-! DEFINITION. The meaning of every operation, one arm per constructor. -/

namespace Sys2Proof.Machine

def exec (i : Instr) (s : State) : Host.Outcome State Fault Refusal :=
  match i with
  | .sdat b => Sys2Proof.Machine.execSdat b s
  | .clkh => Sys2Proof.Machine.execClkh s
  | .clkl => Sys2Proof.Machine.execClkl s
  | .latl => Sys2Proof.Machine.execLatl s
  | .lath => Sys2Proof.Machine.execLath s
  | .wait => Sys2Proof.Machine.execWait s
  | .shiftbyte v => Sys2Proof.Machine.execShiftbyte v s
  | .transmit len => Sys2Proof.Machine.execTransmit len s
  | .encode d p => Sys2Proof.Machine.execEncode d p s
  | .actmask j => Sys2Proof.Machine.execActmask j s
  | .slot => Sys2Proof.Machine.execSlot s
  | .run => Sys2Proof.Machine.execRun s
  | .stop => Sys2Proof.Machine.execStop s

end Sys2Proof.Machine
end

