-- ==== Sys2Proof/Machine/Sequencer.lean ====
section
/-! DEFINITION. The block's sequencer, one event at a time (44_digit_multiplexer.md R210 to R216), and the turns of the
other agents. -/

namespace Sys2Proof.Machine

/-- After the LATL phase: `PH <- SDAT` if there is a byte to send, else `PH <- LATH` (R213). -/
def afterLatl (s : State) : State := { s with ph := if 0 < s.txbuf.length then .sdat else .lath }

/-- After the CLKL phase: the next bit, the next byte, or the end of the bytes; a stand-alone SHIFTBYTE ends there
(R214). -/
def afterClkl (s : State) : State :=
  if s.bitidx < 7 then { s with bitidx := s.bitidx + 1, ph := .sdat }
  else if s.byteidx + 1 < s.txbuf.length then { s with bitidx := 0, byteidx := s.byteidx + 1, ph := .sdat }
  else if s.oper = some .transmit ∨ s.oper = some .run then
    { s with bitidx := 0, byteidx := s.byteidx + 1, ph := .lath }
  else complete { s with bitidx := 0, byteidx := s.byteidx + 1 }

/-- After the LATH phase: the slot wait begins in the same step while scanning; a stand-alone TRANSMIT is done (R215). -/
def afterLath (s : State) : Outcome :=
  match s.mode with
  | .scanning => exec .wait s
  | .stopped => .next (complete s)

/-- One step of the sequencer. `PH` says which event comes next (R29); the operation of that event is run by `exec`,
and what R213 to R215 add around it follows with `proceed`. In IDLE, and in WAIT before the hold is over, the block
has no step and does nothing (R210, R216; log 12). -/
def seqStep (s : State) : Outcome :=
  match s.ph with
  | .idle => .next s
  | .poll => exec .slot s
  | .fetch => fetchStep s
  | .latl => proceed (exec .latl s) fun t => .next (afterLatl t)
  | .sdat =>
    match s.txBit with
    | some b => proceed (exec (.sdat b) s) fun t => .next { t with ph := .clkh }
    | none => .fault .noSuchTxByte
  | .clkh => proceed (exec .clkh s) fun t => .next { t with ph := .clkl }
  | .clkl => proceed (exec .clkl s) fun t => .next (afterClkl t)
  | .lath => proceed (exec .lath s) afterLath
  | .wait => .next (holdStep s)

/-- `k` steps of the sequencer with no turn of another agent between them. -/
def seqSteps : Nat → State → Outcome
  | 0, s => .next s
  | k + 1, s =>
    match seqStep s with
    | .next t => seqSteps k t
    | .fault r => .fault r
    | .refused r => .refused r

/-- The caller's command port: a reserved word and an internal operation are refused (R106, R101); any other word runs
its operation, which checks its own admission (R246). -/
def issueStep (w : Word) (s : State) : Outcome :=
  match decode w with
  | .error r => .refused (.reservedWord r)
  | .ok i => if i.internal then .refused .internalAtPort else exec i s

/-- One turn of one agent (R20). The caller's writes and the time source's advance touch nothing of the block. Frame writes
and the write of `STOP_REQ` are admitted at any time (R246); DESIGN CHOICE: so is a write of the port `TXSEQ`, also while
Scanning or while a SHIFTBYTE or TRANSMIT is in progress, and of `REFRESH_HZ` in the latter case (log 19). -/
def turn (a : Act) (s : State) : Outcome :=
  match a with
  | .block => seqStep s
  | .issue w => issueStep w s
  | .writeFrame i v =>
    if i < s.cfg.n then .next { s with frame := Memory.write s.frame i v } else .fault .noSuchFrameEntry
  | .writeStop b => .next { s with stopReq := b }
  | .writeTxseq bs => .next { s with txseq := bs }
  | .writeRefreshHz hz => .next { s with refreshHz := hz }
  | .tick d => .next { s with now := s.now + d }

/-- One step of the machine: the next turn of the schedule, or the block's when the schedule is empty (log 2). Under a
configuration that is not well-formed nothing has a meaning (R35; log 11). -/
def machineStep (s : State) : Outcome :=
  if configWf s.cfg then
    match s.sched with
    | [] => seqStep s
    | a :: rest => turn a { s with sched := rest }
  else .refused .configIllFormed

/-- Place an operation where the very next step runs it (log 15, 16). A caller's operation is the next word at the
command port. An internal operation is refused there, so the sequencer is put at the phase that performs it, inside the
operation it is a part of: SDAT, CLKH and CLKL in a SHIFTBYTE, LATL and LATH in a TRANSMIT, SLOT in a RUN, and WAIT in a
RUN at the LATH that it follows in one step (R215). -/
def placeInstr (w : Word) (s : State) : State :=
  match decode w with
  | .error _ => { s with sched := .issue w :: s.sched }
  | .ok i =>
    match i with
    | .sdat b =>
      { s with sched := .block :: s.sched, ph := .sdat, oper := some .shiftByte, txbuf := [if b then 0x80#8 else 0#8],
               byteidx := 0, bitidx := 0 }
    | .clkh =>
      { s with sched := .block :: s.sched, ph := .clkh, oper := some .shiftByte, txbuf := [0#8], byteidx := 0, bitidx := 0 }
    | .clkl =>
      { s with sched := .block :: s.sched, ph := .clkl, oper := some .shiftByte, txbuf := [0#8], byteidx := 0, bitidx := 0 }
    | .latl => { s with sched := .block :: s.sched, ph := .latl, oper := some .transmit, txbuf := [], byteidx := 0, bitidx := 0 }
    | .lath => { s with sched := .block :: s.sched, ph := .lath, oper := some .transmit, txbuf := [], byteidx := 0, bitidx := 0 }
    | .wait => { s with sched := .block :: s.sched, ph := .lath, oper := some .run, mode := .scanning }
    | .slot => { s with sched := .block :: s.sched, ph := .poll, oper := some .run, mode := .scanning }
    | .shiftbyte _ => { s with sched := .issue w :: s.sched }
    | .transmit _ => { s with sched := .issue w :: s.sched }
    | .encode _ _ => { s with sched := .issue w :: s.sched }
    | .actmask _ => { s with sched := .issue w :: s.sched }
    | .run => { s with sched := .issue w :: s.sched }
    | .stop => { s with sched := .issue w :: s.sched }

end Sys2Proof.Machine
end

