-- ==== Sys2Proof/Machine/Step.lean ====
section
/-! DEFINITION. The step of the machine, and the placing of an instruction for the very next step. -/

namespace Sys2Proof.Machine

/-- One step (Machine/Sequencer.lean). -/
def step : State → Host.Outcome State Fault Refusal := machineStep

/-- `s` with the instruction of word `w` placed where the next step fetches it (log 15, 16). -/
def State.withFetchWord (s : State) (nbits w : Nat) : State := placeInstr (BitVec.ofNat 16 (w % 2 ^ nbits)) s

end Sys2Proof.Machine
end

