-- ==== Sys2Proof/Machine/Display.lean ====
section
/-! DEFINITION. What the display shows: the observation of `OUT` through the wiring (41_shift_register_bus.md R155).
Segments are named by bit number; which bit is which letter is general knowledge (R162) and is not part of the model. -/

namespace Sys2Proof.Machine

/-- `rS`, the register that holds the segment byte (R96, R155). -/
def segReg (c : Config) : Nat := if c.segFirst then c.k - 1 else 0

/-- `rM(m)`, the register that holds select byte `m` (R96, R155). -/
def maskReg (c : Config) (m : Nat) : Nat := if c.segFirst then c.m - 1 - m else c.m - m

/-- `SEGOUT[b]` (R155). -/
def segOut (s : State) (b : Nat) : Level := s.out.getD (8 * segReg s.cfg + b) false

/-- `SELFIELD[f]`, field bit `f = 8*m + t` (R155). -/
def selField (s : State) (f : Nat) : Level := s.out.getD (8 * maskReg s.cfg (f / 8) + f % 8) false

/-- `active(j)` (R155). -/
def active (s : State) (j : Nat) : Bool := selField s (selLineOf s.cfg j) == s.cfg.selActive

/-- `segOn(b)` (R155). -/
def segOn (s : State) (b : Nat) : Bool :=
  match s.cfg.polarity with
  | .commonCathode => segOut s b
  | .commonAnode => !segOut s b

/-- `lit(j, b)`: segment bit `b` of digit `j` is lit (R155). -/
def lit (s : State) (j b : Nat) : Bool := active s j && segOn s b

end Sys2Proof.Machine
end

