-- ==== Sys2Proof/Machine/Expansion.lean ====
section
/-! DEFINITION. The big-step reading: the expansions of the composite operations (30_encoding.md R111), their wire
format (R93 to R95), and the whole-operation run that the small steps are compared with (44_digit_multiplexer.md R217). -/

namespace Sys2Proof.Machine

/-- `SHIFTBYTE v` expands to `SDAT v[7-i]; CLKH; CLKL` for `i` = 0 to 7 (R111, R129). -/
def expandByte (v : Byte) : List Instr :=
  (List.range 8).flatMap fun i => [.sdat (dataBit v i), .clkh, .clkl]

/-- `TRANSMIT bytes` expands to `LATL`, the SHIFTBYTEs, `LATH` (R111, R141). -/
def expandTransmit (bs : List Byte) : List Instr := .latl :: (bs.flatMap expandByte ++ [.lath])

/-- Perform operations in order; a PinFault ends the composite operation at the failing one (R129, R144, R240). -/
def perform : List Instr → State → Outcome
  | [], s => .next s
  | i :: rest, s => proceed (exec i s) (perform rest)

/-- One bit on the wire: three pin writes (R93). -/
def wireBit (b : Level) : List Event := [.w .data b, .w .clock true, .w .clock false]

/-- One byte on the wire: eight bits, bit 7 first (R94). -/
def wireByte (v : Byte) : List Event := (List.range 8).flatMap fun i => wireBit (dataBit v i)

/-- One transaction on the wire (R95). -/
def wireTransmit (bs : List Byte) : List Event := .w .latch false :: (bs.flatMap wireByte ++ [.w .latch true])

/-- The bits of a byte list in the order they are sent (R67, R68). -/
def sentBits (bs : List Byte) : List Level := bs.flatMap fun v => (List.range 8).map (dataBit v)

/-- The chain's stages after the bits of `bs` have been shifted in: the last bit sent is in stage 0, old bits have moved
up, and what does not fit is lost (R150, R153, R154). -/
def afterShift (bs : List Byte) (sh : List Level) : List Level := ((sentBits bs).reverse ++ sh).take sh.length

/-- What a pin write can change, and what the caller can see of it: the lines, the chain, the events, the oracle's
answers left, and the fault. The registers that only say how far an operation has got are left out. -/
structure BusView where
  data : Level
  clock : Level
  latch : Level
  sh : List Level
  out : List Level
  trace : List Event
  pins : List PinAnswer
  fault : Option FaultKind
  deriving DecidableEq, Repr

/-- The bus view of a state. -/
def busView (s : State) : BusView where
  data := s.data
  clock := s.clock
  latch := s.latch
  sh := s.sh
  out := s.out
  trace := s.trace
  pins := s.pins
  fault := s.fault

end Sys2Proof.Machine
end

