-- ==== Sys2Proof/Safety.lean ====
section
/-! DEFINITION. What claims are stated in: the invariants of the state (10_state.md R52, R31), of a transaction in
progress, and of the display, and the meaning of a safe step. -/

namespace Sys2Proof.Machine

/-- A pin write to CLOCK has failed, as `TRACE` records it: a failed write is the event `W(CLOCK, l)` with
`FAULT(PinFault)` next after it (R121, R240, R48). -/
abbrev State.clockWriteFailed (s : State) : Prop := ∃ l : Level, [.w .clock l, .fault .pinFault] <:+: s.trace

/-- The invariants of R52 and R31, the canonical form of the frame store, the lengths of the chain (R44), and what ties
the operation in progress to the phase (log 14). -/
structure State.Inv (s : State) : Prop where
  /-- The configuration is well-formed (R35). -/
  cfgWf : configWf s.cfg = true
  /-- R52 (a). -/
  posLt : s.pos < s.cfg.n
  /-- R52 (b). -/
  bitLe : s.bitidx ≤ 7
  /-- R52 (b). -/
  byteLe : s.byteidx ≤ s.txbuf.length
  /-- The byte being shifted exists (R24). -/
  byteLt : s.ph = .sdat ∨ s.ph = .clkh ∨ s.ph = .clkl → s.byteidx < s.txbuf.length
  /-- A transaction starts at its first bit (R210, R212). -/
  start : s.ph = .latl → s.byteidx = 0 ∧ s.bitidx = 0
  /-- R52 (c): `CLOCK = 0` in every phase but CLKL, provided no pin write to CLOCK has failed. -/
  clockLow : ¬ s.clockWriteFailed → s.ph ≠ .clkl → s.clock = false
  /-- PinFault is cleared by reset alone (R32, R262): once raised, it is what `FAULT` holds. -/
  pinFaultSticky : Event.fault .pinFault ∈ s.trace → s.fault = some .pinFault
  /-- R52 (d): `LATCH = 1` outside a transaction, unless a pin write has failed. -/
  latchHigh : s.fault ≠ some .pinFault → s.ph = .idle ∨ s.ph = .poll ∨ s.ph = .fetch ∨ s.ph = .wait → s.latch = true
  /-- LATCH is still high when a transaction begins (R30: LATL follows IDLE or FETCH). -/
  latchStart : s.ph = .latl → s.latch = true
  /-- A stand-alone SHIFTBYTE leaves the latch as IDLE had it (R129, R131). -/
  latchShift : s.oper = some .shiftByte → s.latch = true
  /-- R143: `LATCH = 0` inside a transaction whose LATL succeeded. -/
  latchLow : s.oper ≠ some .shiftByte → s.ph = .sdat ∨ s.ph = .clkh ∨ s.ph = .clkl ∨ s.ph = .lath → s.latch = false
  /-- R52 (e): while scanning, `TXBUF` holds `K` bytes in every phase after FETCH. -/
  scanLen : s.mode = .scanning → s.ph ≠ .poll → s.ph ≠ .fetch → s.txbuf.length = s.cfg.k
  /-- R52 (f). -/
  pinFaultIdle : s.fault = some .pinFault → s.mode = .stopped ∧ s.ph = .idle
  /-- R31: the block is scanning exactly while a RUN is in progress. -/
  scanIffRun : s.mode = .scanning ↔ s.oper = some .run
  /-- R31, R210: no operation is in progress exactly in IDLE. -/
  idleIffNone : s.ph = .idle ↔ s.oper = none
  /-- Only a RUN polls, fetches and waits (R30). -/
  slotPhases : s.ph = .poll ∨ s.ph = .fetch ∨ s.ph = .wait → s.oper = some .run
  /-- A stand-alone SHIFTBYTE writes no latch (R129). -/
  latchPhases : s.ph = .latl ∨ s.ph = .lath → s.oper ≠ some .shiftByte
  /-- The frame store is in canonical form. -/
  frameWf : Memory.wf s.cfg.n s.frame = true
  /-- R44: the chain has `8*K` stages. -/
  shLen : s.sh.length = 8 * s.cfg.k
  /-- R44: the chain has `8*K` outputs. -/
  outLen : s.out.length = 8 * s.cfg.k
  /-- R24: `SLOTDUR` is positive. -/
  slotdurPos : 0 < s.slotdur
  /-- R49: the clock never decreases. -/
  t0Le : s.t0 ≤ s.now

/-- How many bits of `TXBUF` have been shifted into the chain (R26): the CLKL phase comes after the rising edge. -/
def State.bitsIn (s : State) : Nat := 8 * s.byteidx + s.bitidx + (if s.ph = .clkl then 1 else 0)

/-- The transaction in progress: the bits shifted in so far are in the lowest stages, the last one in stage 0 (R150),
and at the latch phases all of them have been shifted (R26). -/
structure State.ShiftInv (s : State) : Prop where
  /-- After the last bit `BYTEIDX = len(TXBUF)` (R26). -/
  done : s.ph = .lath ∨ s.ph = .wait → s.byteidx = s.txbuf.length ∧ s.bitidx = 0
  /-- After the SDAT phase DATA holds the bit that the next rising edge shifts in (R93, R24). -/
  bitSet : s.ph = .clkh → s.txBit = some s.data
  /-- The bits sent so far, newest first, are the head of `SH`. -/
  head : s.ph = .sdat ∨ s.ph = .clkh ∨ s.ph = .clkl ∨ s.ph = .lath ∨ s.ph = .wait →
    s.sh.take s.bitsIn = (((sentBits s.txbuf).take s.bitsIn).reverse).take s.sh.length

/-- The scanner's transaction carries the pattern of a valid digit and the select bytes of `POS` (R192 to R194). -/
def State.SlotInv (s : State) : Prop :=
  s.mode = .scanning → s.ph ≠ .poll → s.ph ≠ .fetch →
    ∃ d q, 0 ≤ d ∧ d ≤ 9 ∧ segPattern d s.cfg.polarity = some q ∧ s.txbuf = slotSeq s.cfg q (maskOf s.cfg s.pos)

/-- The three together: the invariant of every state that a run from reset reaches. -/
structure State.FullInv (s : State) : Prop where
  inv : s.Inv
  shift : s.ShiftInv
  slot : s.SlotInv

/-- Position `j` and no other is active (R156). -/
def onlyActive (s : State) (j : Nat) : Prop := ∀ i, i < s.cfg.n → (active s i = true ↔ i = j)

/-- Exactly one position is active (R156). -/
def oneActive (s : State) : Prop := ∃ j, j < s.cfg.n ∧ onlyActive s j

/-- The block is stopped and idle and no pin fault has occurred: RUN, TRANSMIT and SHIFTBYTE are admitted (R246). -/
abbrev State.ready (s : State) : Prop := s.mode = .stopped ∧ s.ph = .idle ∧ s.fault ≠ some .pinFault

/-- The oracle answers ok to the next `n` pin writes (R236). -/
abbrev State.okFor (s : State) (n : Nat) : Prop := ∀ a ∈ s.pins.take n, a = .ok

/-- What a failed pin write of level `l` to line `p` leaves, the line and the chain apart (R214, last sentence). -/
def pinFaulted (p : Line) (l : Level) (s : State) : State :=
  { s with
    trace := s.trace ++ [.w p l, .fault .pinFault]
    pins := s.pins.tail
    fault := some .pinFault
    mode := .stopped
    ph := .idle
    oper := none
    status := some (.err .pinFault) }

/-- A safe step: the machine does not stop with a fault (a refusal is no fault, R235). -/
def safeStep (s : State) : Prop := ∀ r, step s ≠ .fault r

/-- A caller's turn that names no frame entry outside the store (R60): the one turn that can fault in a state that
meets the invariant. -/
def inRange (s : State) : Act → Prop
  | .writeFrame i _ => i < s.cfg.n
  | _ => True

end Sys2Proof.Machine
end

