-- ==== Sys2Proof/Certificates/Slice0/Obligations.lean ====
section
/-! DEFINITION. The statements for the provers. Rules R<n> are those of spec/; "log <n>" is notes/assumptions/<n>.md. -/

open Sys2Proof Sys2Proof.Machine

/-! ### Encodings -/

/-- R104, R105 (the command word is the spec's own choice D3): every operand of every operation survives encoding, and
every word that decodes is the one word of its operation, so no bit is dropped and no two words mean the same. -/
def Obligations.DecodeAndEncodeAgree : Prop :=
  (∀ i : Instr, i.wellFormed = true → decode (encode i) = .ok i) ∧
  (∀ (w : Word) (i : Instr), decode w = .ok i → i.wellFormed = true ∧ encode i = w)

/-- R105, R106: a word is accepted exactly when it matches a row of the table, and then the row of its operation, and
the rows do not overlap. -/
def Obligations.WordAcceptedIffARowMatches : Prop :=
  (∀ w : Word, (∃ i, decode w = .ok i) ↔ ∃ r ∈ opcodeRows, w &&& r.2 = r.1) ∧
  (∀ (w : Word) (i : Instr), decode w = .ok i → w &&& (rowOf i).2 = (rowOf i).1) ∧
  (∀ w : Word, ∀ r ∈ opcodeRows, ∀ r' ∈ opcodeRows, w &&& r.2 = r.1 → w &&& r'.2 = r'.1 → r = r')

/-- R105, written out: a word of each family, and reserved words of R106 (V104). -/
def Obligations.WordsOfTheTableDecode : Prop :=
  decode 0b0000000100000001#16 = .ok (.sdat true) ∧
  decode 0b0000001000000000#16 = .ok .clkh ∧
  decode 0b0001000000000110#16 = .ok (.shiftbyte 0x06#8) ∧
  decode 0b0001000100000010#16 = .ok (.transmit 2) ∧
  decode 0b0010000000000011#16 = .ok (.encode 3 .commonCathode) ∧
  decode 0b0010000100001010#16 = .ok (.encode 10 .commonAnode) ∧
  decode 0b0011000000000010#16 = .ok (.actmask 2) ∧
  decode 0b0100001000000000#16 = .ok .run ∧
  decode 0b0100001100000000#16 = .ok .stop ∧
  decode 0x0000#16 = .error (.reservedOp 0x00#8) ∧
  decode 0x4201#16 = .error (.immediateNotZero 0x42#8 0x01#8)

/-! ### The step and what it runs -/

/-- R104, R101: a word the caller issues runs its operation in the same step, with nothing added around it. -/
def Obligations.StepRunsTheIssuedWord : Prop :=
  ∀ (s : State) (w : Word) (i : Instr) (rest : List Act),
    configWf s.cfg = true → s.sched = .issue w :: rest → decode w = .ok i → i.internal = false →
    step s = exec i { s with sched := rest }

/-- In the block's turn the phase says which operation runs, and what the step adds around it is the sequencer's advance
(R29, R211, R213 to R215; `proceed` adds nothing when the operation raised PinFault). In IDLE the block has no step, and
its turn leaves the state as it is (R210, R260; log 12). That the block has the turn when the schedule is empty, the
first clause, is the model's choice (log 2). -/
def Obligations.StepRunsTheOperationOfThePhase : Prop :=
  (∀ s : State, configWf s.cfg = true → s.sched = [] → step s = seqStep s) ∧
  (∀ (s : State) (rest : List Act), configWf s.cfg = true → s.sched = .block :: rest →
    step s = seqStep { s with sched := rest }) ∧
  (∀ s : State, s.ph = .idle → seqStep s = .next s) ∧
  (∀ s : State, s.ph = .poll → seqStep s = exec .slot s) ∧
  (∀ s : State, s.ph = .latl → seqStep s = proceed (exec .latl s) fun t => .next (afterLatl t)) ∧
  (∀ (s : State) (v : Byte), s.ph = .sdat → s.txbuf[s.byteidx]? = some v →
    seqStep s = proceed (exec (.sdat (v.getLsbD (7 - s.bitidx))) s) fun t => .next { t with ph := .clkh }) ∧
  (∀ s : State, s.ph = .clkh → seqStep s = proceed (exec .clkh s) fun t => .next { t with ph := .clkl }) ∧
  (∀ s : State, s.ph = .clkl → seqStep s = proceed (exec .clkl s) fun t => .next (afterClkl t)) ∧
  (∀ s : State, s.ph = .lath → s.mode = .stopped →
    seqStep s = proceed (exec .lath s) fun t => .next (complete t)) ∧
  (∀ s : State, s.ph = .lath → s.mode = .scanning → seqStep s = proceed (exec .lath s) (exec .wait))

/-- R106, R101, R35, R267 (log 6, 11): what a step refuses by name besides the operations not admitted: an ill-formed
configuration, a reserved word, an internal operation at the port, and a frame entry nothing has written. -/
def Obligations.StepRefusesByName : Prop :=
  (∀ s : State, configWf s.cfg = false → step s = .refused .configIllFormed) ∧
  (∀ (s : State) (w : Word) (r : Reject) (rest : List Act),
    configWf s.cfg = true → s.sched = .issue w :: rest → decode w = .error r → step s = .refused (.reservedWord r)) ∧
  (∀ (s : State) (w : Word) (i : Instr) (rest : List Act),
    configWf s.cfg = true → s.sched = .issue w :: rest → decode w = .ok i → i.internal = true →
    step s = .refused .internalAtPort) ∧
  (∀ s : State, s.ph = .fetch → s.pos < s.cfg.n → Memory.read s.frame s.pos = none →
    seqStep s = .refused .frameEntryUnwritten)

/-! ### The pin micro-operations -/

/-- R122: one write, one event, also when the level does not change; nothing else is touched. -/
def Obligations.SdatWritesTheDataLine : Prop :=
  ∀ (s : State) (b : Level), s.fault ≠ some .pinFault → s.okFor 1 →
    exec (.sdat b) s = .next { s with data := b, trace := s.trace ++ [.w .data b], pins := s.pins.tail }

/-- R123, R150, R152 (decisions D6, D7): CLKH raises CLOCK; on a rising edge every stage takes its lower neighbour and
stage 0 takes DATA; with CLOCK already high there is no edge. -/
def Obligations.ClkhRaisesTheClockAndShifts : Prop :=
  ∀ s : State, s.fault ≠ some .pinFault → s.okFor 1 →
    (s.clock = true →
      exec .clkh s = .next { s with trace := s.trace ++ [.w .clock true], pins := s.pins.tail }) ∧
    (s.clock = false → ∃ sh : List Level,
      sh.length = s.sh.length ∧
      (0 < s.sh.length → sh[0]? = some s.data) ∧
      (∀ i, i + 1 < s.sh.length → sh[i + 1]? = s.sh[i]?) ∧
      exec .clkh s = .next { s with
        clock := true
        trace := s.trace ++ [.w .clock true]
        pins := s.pins.tail
        sh := sh
        out := if s.cfg.latchTransparent = true ∧ s.latch = true then sh else s.out })

/-- R124, R125, R151 (decision D6): CLKL and LATL lower their line; a falling edge does nothing to the chain, the
outputs stay as they are. -/
def Obligations.LoweringALineLeavesTheChain : Prop :=
  ∀ s : State, s.fault ≠ some .pinFault → s.okFor 1 →
    exec .clkl s = .next { s with clock := false, trace := s.trace ++ [.w .clock false], pins := s.pins.tail } ∧
    exec .latl s = .next { s with latch := false, trace := s.trace ++ [.w .latch false], pins := s.pins.tail }

/-- R126, R151 (decision D6): LATH raises LATCH; a rising edge commits all the stages to the outputs at once, no edge
commits nothing. -/
def Obligations.LathRaisesTheLatchAndCommits : Prop :=
  ∀ s : State, s.fault ≠ some .pinFault → s.okFor 1 →
    exec .lath s = .next { s with
      latch := true
      trace := s.trace ++ [.w .latch true]
      pins := s.pins.tail
      out := if s.latch = true then s.out else s.sh }

/-- R121, R240 (decision D15): a failed write leaves its line at the drawn level `x`, whatever it is, the chain reacts
to that level, and PinFault is taken. -/
def Obligations.FailedPinWriteTakesPinFault : Prop :=
  ∀ (s : State) (x : Level), s.fault ≠ some .pinFault → s.pins.head? = some (.fail x) →
    (∀ b, exec (.sdat b) s = .next { pinFaulted .data b s with data := x }) ∧
    exec .clkh s = .next { pinFaulted .clock true s with
      clock := x
      sh := if s.clock = false ∧ x = true then shiftIn s.data s.sh else s.sh
      out := if s.clock = false ∧ x = true ∧ s.cfg.latchTransparent = true ∧ s.latch = true then shiftIn s.data s.sh
        else s.out } ∧
    exec .clkl s = .next { pinFaulted .clock false s with
      clock := x
      sh := if s.clock = false ∧ x = true then shiftIn s.data s.sh else s.sh
      out := if s.clock = false ∧ x = true ∧ s.cfg.latchTransparent = true ∧ s.latch = true then shiftIn s.data s.sh
        else s.out } ∧
    exec .latl s = .next { pinFaulted .latch false s with
      latch := x
      out := if s.latch = false ∧ x = true then s.sh else s.out } ∧
    exec .lath s = .next { pinFaulted .latch true s with
      latch := x
      out := if s.latch = false ∧ x = true then s.sh else s.out }

/-- R128, R215: WAIT emits its event and notes the time; it writes no line, so the display holds. It completes in every
state. -/
def Obligations.WaitStartsTheHold : Prop :=
  ∀ s : State,
    exec .wait s = .next { s with trace := s.trace ++ [.sleep s.slotdur], t0 := s.now, ph := .wait }

/-! ### SHIFTBYTE and TRANSMIT -/

/-- R129, R210, R214 (decisions D2, D6; log 1): SHIFTBYTE issued to a ready block makes its 24 writes in the block's
next 24 turns, and this is the whole state it leaves. With CLOCK high at entry the first bit is lost (R266). -/
def Obligations.ShiftbyteShiftsEightBits : Prop :=
  ∀ (s : State) (v : Byte), s.ready → s.okFor 24 →
    ∃ t, exec (.shiftbyte v) s = .next t ∧
      seqSteps 24 t = .next { s with
        data := v.getLsbD 0
        clock := false
        sh := (((sentBits [v]).drop (if s.clock = true then 1 else 0)).reverse ++ s.sh).take s.sh.length
        out := if s.cfg.latchTransparent = true ∧ s.latch = true then
            (((sentBits [v]).drop (if s.clock = true then 1 else 0)).reverse ++ s.sh).take s.sh.length
          else s.out
        txbuf := [v]
        byteidx := 1
        bitidx := 0
        oper := none
        status := some .ok
        trace := s.trace ++ wireByte v
        pins := s.pins.drop 24 }

/-- R93, R94: the 24 events of one byte, written out. -/
def Obligations.ByteOnTheWire : Prop :=
  ∀ (s t : State) (v : Byte), s.ready → s.okFor 24 → exec (.shiftbyte v) s = .next t →
    ∃ u, seqSteps 24 t = .next u ∧ u.trace = s.trace ++
      [.w .data (v.getLsbD 7), .w .clock true, .w .clock false, .w .data (v.getLsbD 6), .w .clock true, .w .clock false,
       .w .data (v.getLsbD 5), .w .clock true, .w .clock false, .w .data (v.getLsbD 4), .w .clock true, .w .clock false,
       .w .data (v.getLsbD 3), .w .clock true, .w .clock false, .w .data (v.getLsbD 2), .w .clock true, .w .clock false,
       .w .data (v.getLsbD 1), .w .clock true, .w .clock false, .w .data (v.getLsbD 0), .w .clock true, .w .clock false]

/-- R141, R210, R213 to R215 (decisions D2, D6; log 1): TRANSMIT issued to a ready block makes its `24*L + 2` writes in
the block's next turns, and this is the whole state it leaves, for every length (R145, R154) and for CLOCK high at entry
too (R266). The bytes are those of `TXSEQ`; that an entry the caller did not supply gives a byte at all, a free value,
is the model's choice (log 9). -/
def Obligations.TransmitSendsTheBytesAndCommits : Prop :=
  ∀ (s : State) (len : Nat) (bs : List Byte), s.ready → s.okFor (24 * len + 2) →
    bs = txseqBytes s.txseq s.draws len →
    ∃ t, exec (.transmit len) s = .next t ∧
      seqSteps (24 * len + 2) t = .next { s with
        data := ((sentBits bs).getLast?).getD s.data
        clock := if len = 0 then s.clock else false
        latch := true
        sh := (((sentBits bs).drop (if s.clock = true then 1 else 0)).reverse ++ s.sh).take s.sh.length
        out := (((sentBits bs).drop (if s.clock = true then 1 else 0)).reverse ++ s.sh).take s.sh.length
        txbuf := bs
        byteidx := len
        bitidx := 0
        oper := none
        status := some .ok
        trace := s.trace ++ wireTransmit bs
        pins := s.pins.drop (24 * len + 2)
        draws := s.draws + 1 }

/-- R153, R68 (R153 is derived from R141, R150, R151): after a fault-free TRANSMIT of `K` bytes entered with CLOCK low,
byte `j` is in register `K-1-j`, bit `b` in stage `b` of it, on `SH` and on `OUT`; nothing of the old content remains.
-/
def Obligations.FirstByteEndsFarthest : Prop :=
  ∀ (s t u : State), s.Inv → s.ready → s.okFor (24 * s.cfg.k + 2) →
    exec (.transmit s.cfg.k) s = .next t → seqSteps (24 * s.cfg.k + 2) t = .next u →
    ∀ j b, j < s.cfg.k → b < 8 → ∃ v, u.txbuf[j]? = some v ∧
      u.sh[8 * (s.cfg.k - 1 - j) + b]? = some (v.getLsbD b) ∧
      u.out[8 * (s.cfg.k - 1 - j) + b]? = some (v.getLsbD b)

/-- R154 (derived from R150): a transmit of the wrong length is no fault. Bit `b` of byte `j` ends in stage
`8*(L-1-j)+b` if the chain has it, and an old bit of stage `i` ends in stage `i + 8*L` if the chain has it. -/
def Obligations.WrongLengthTransmitMovesTheOldBits : Prop :=
  ∀ (s t u : State) (len : Nat), s.Inv → s.ready → s.okFor (24 * len + 2) →
    exec (.transmit len) s = .next t → seqSteps (24 * len + 2) t = .next u →
    u.fault = s.fault ∧ u.sh.length = s.sh.length ∧ u.out = u.sh ∧
    (∀ j b, j < len → b < 8 → 8 * (len - 1 - j) + b < s.sh.length →
      ∃ v, u.txbuf[j]? = some v ∧ u.sh[8 * (len - 1 - j) + b]? = some (v.getLsbD b)) ∧
    (∀ i, i + 8 * len < s.sh.length → u.sh[i + 8 * len]? = s.sh[i]?)

/-- R146, R73 (R146 is derived from R153): a second transmit of the same `K` bytes leaves the same `SH` and `OUT`. -/
def Obligations.SecondTransmitChangesNoOutput : Prop :=
  ∀ (s t u t' u' : State), s.Inv → s.ready → s.cfg.k ≤ s.txseq.length → s.okFor (2 * (24 * s.cfg.k + 2)) →
    exec (.transmit s.cfg.k) s = .next t → seqSteps (24 * s.cfg.k + 2) t = .next u →
    exec (.transmit s.cfg.k) u = .next t' → seqSteps (24 * s.cfg.k + 2) t' = .next u' →
    u'.sh = u.sh ∧ u'.out = u.out ∧ u'.txbuf = u.txbuf

/-- R142, R112 (derived from R141): the events that a fault-free TRANSMIT of `L` bytes appends to `TRACE`: `L0` once and
first, `L1` once and last, every write of DATA and CLOCK between them, 8 clock pulses a byte, `24*L + 2` pin writes and
no other event. -/
def Obligations.TransactionHasOneLatchPulse : Prop :=
  ∀ (s : State) (len : Nat), s.ready → s.okFor (24 * len + 2) →
    ∃ t u es mid, exec (.transmit len) s = .next t ∧ seqSteps (24 * len + 2) t = .next u ∧
      u.trace = s.trace ++ es ∧ es.length = 24 * len + 2 ∧
      es = [.w .latch false] ++ mid ++ [.w .latch true] ∧
      (∀ e ∈ mid, ∃ l, e = .w .data l ∨ e = .w .clock l) ∧
      es.count (.w .latch false) = 1 ∧
      es.count (.w .latch true) = 1 ∧
      es.count (.w .clock true) = 8 * len ∧
      es.count (.w .clock false) = 8 * len

/-- R217, R111 (R217 is derived from R210 to R216): the block's 24 turns after SHIFTBYTE are the expansion of SHIFTBYTE
performed as a whole, whatever the oracle answers, a fault in the middle included. -/
def Obligations.ShiftbyteStepsMatchItsExpansion : Prop :=
  ∀ (s t : State) (v : Byte), exec (.shiftbyte v) s = .next t →
    ∃ u b, seqSteps 24 t = .next u ∧ perform (expandByte v) s = .next b ∧ busView u = busView b ∧
      u.ph = .idle ∧ u.mode = .stopped ∧
      u.status = some (if u.fault = some .pinFault then .err .pinFault else .ok)

/-- R217, R111 (derived, as above): the same of TRANSMIT, for every length. -/
def Obligations.TransmitStepsMatchItsExpansion : Prop :=
  ∀ (s t : State) (len : Nat), exec (.transmit len) s = .next t →
    ∃ u b, seqSteps (24 * len + 2) t = .next u ∧ perform (expandTransmit t.txbuf) s = .next b ∧
      busView u = busView b ∧ u.ph = .idle ∧ u.mode = .stopped ∧
      u.status = some (if u.fault = some .pinFault then .err .pinFault else .ok)

/-! ### ENCODE and ACTMASK -/

/-- R161: the common-cathode table, and bit 7 is 0 in every entry. -/
def Obligations.CathodeTableEntries : Prop :=
  segPattern 0 .commonCathode = some 0x3F#8 ∧ segPattern 1 .commonCathode = some 0x06#8 ∧
  segPattern 2 .commonCathode = some 0x5B#8 ∧ segPattern 3 .commonCathode = some 0x4F#8 ∧
  segPattern 4 .commonCathode = some 0x66#8 ∧ segPattern 5 .commonCathode = some 0x6D#8 ∧
  segPattern 6 .commonCathode = some 0x7D#8 ∧ segPattern 7 .commonCathode = some 0x07#8 ∧
  segPattern 8 .commonCathode = some 0x7F#8 ∧ segPattern 9 .commonCathode = some 0x6F#8 ∧
  (∀ (d : Int) (q : Byte), segPattern d .commonCathode = some q → q.getLsbD 7 = false)

/-- R164: every digit that has a common-cathode pattern has a common-anode one, its complement over all 8 bits, so bit 7
is 1; and no other digit has one. -/
def Obligations.AnodeIsTheComplementOverEightBits : Prop :=
  segPattern 0 .commonAnode = some 0xC0#8 ∧
  ∀ d : Int,
    (∀ c, segPattern d .commonCathode = some c → ∃ q, segPattern d .commonAnode = some q ∧
      q = 255#8 - c ∧ q = c ^^^ 0xFF#8 ∧ (∀ b, b < 8 → q.getLsbD b = !c.getLsbD b) ∧ q.getLsbD 7 = true) ∧
    (segPattern d .commonCathode = none → segPattern d .commonAnode = none)

/-- R165, R32, R210 (decisions D2, D14): ENCODE of a valid digit issued to a stopped block completes in its step with
the byte in `RES`; `FAULT` is cleared unless it is PinFault, nothing else changes. -/
def Obligations.EncodeReturnsTheTableByte : Prop :=
  ∀ (s : State) (d : Int) (p : Polarity), s.mode = .stopped → s.ph = .idle → 0 ≤ d → d ≤ 9 →
    ∃ c, segtab[d.toNat]? = some c ∧
      exec (.encode d p) s = .next { s with
        res := [match p with
          | .commonCathode => c
          | .commonAnode => 255#8 - c]
        fault := if s.fault = some .pinFault then some .pinFault else none
        status := some .ok }

/-- R166, R240 (decision D14): ENCODE of any other integer takes InvalidDigit, whatever the polarity; `RES` is not
written. -/
def Obligations.EncodeOfANonDigitTakesInvalidDigit : Prop :=
  ∀ (s : State) (d : Int) (p : Polarity), s.mode = .stopped → s.ph = .idle → s.fault ≠ some .pinFault → d < 0 ∨ 9 < d →
    exec (.encode d p) s = .next { s with
      trace := s.trace ++ [.fault .invalidDigit]
      fault := some .invalidDigit
      oper := none
      status := some (.err .invalidDigit) }

/-- Log 4 (DEDUCED: R240 against R32, R243, R262): the same after a PinFault returns the failure and leaves `FAULT` at
PinFault. -/
def Obligations.InvalidDigitDoesNotClearPinFault : Prop :=
  ∀ (s : State) (d : Int) (p : Polarity), s.mode = .stopped → s.ph = .idle → s.fault = some .pinFault → d < 0 ∨ 9 < d →
    exec (.encode d p) s = .next { s with
      trace := s.trace ++ [.fault .invalidDigit]
      oper := none
      status := some (.err .invalidDigit) }

/-- R177, R210 (decisions D2, D9): ACTMASK of a position returns the table entry as it stands; any other is refused. -/
def Obligations.ActmaskReturnsTheTableEntry : Prop :=
  ∀ (s : State) (i : Nat), s.mode = .stopped → s.ph = .idle →
    (i < s.cfg.n → configWf s.cfg = true →
      ∃ e, s.cfg.masktab[i]? = some e ∧ e.length = s.cfg.m ∧
        exec (.actmask i) s = .next { s with res := e, status := some .ok }) ∧
    (s.cfg.n ≤ i → exec (.actmask i) s = .refused .positionOutOfRange)

/-- R178, R179 (decision D9; R179 is derived): in a well-formed configuration each entry makes its own position active
and no other; select lines are injective, entries pairwise distinct, and there are enough select bits. -/
def Obligations.WellFormedMasksSelectOnePosition : Prop :=
  ∀ c : Config, configWf c = true →
    (∀ i j, i < c.n → j < c.n → (fieldBit (maskOf c i) (selLineOf c j) = c.selActive ↔ i = j)) ∧
    (∀ i j, i < c.n → j < c.n → selLineOf c i = selLineOf c j → i = j) ∧
    (∀ i j, i < c.n → j < c.n → maskOf c i = maskOf c j → i = j) ∧
    c.n ≤ 8 * c.m ∧ (∀ i, i < c.n → (maskOf c i).length = c.m)

/-- R181 (decision D10): the default configuration is well-formed for every `N` from 1 to 8, active-high and active-low.
-/
def Obligations.DefaultConfigurationsAreWellFormed : Prop :=
  ∀ (n : Nat) (a : Level), 1 ≤ n → n ≤ 8 → configWf (Config.standard n a) = true

/-! ### SLOT, RUN and STOP -/

/-- R197, R211 (decision D13): SLOT begins with its poll, in every state. A request seen ends the run with Ok and no
frame read; otherwise the slot goes on. -/
def Obligations.SlotPollsTheStopRequest : Prop :=
  ∀ s : State,
    (s.stopReq = true → exec .slot s = .next { s with
      trace := s.trace ++ [.poll true], mode := .stopped, ph := .idle, oper := none, status := some .ok }) ∧
    (s.stopReq = false → exec .slot s = .next { s with trace := s.trace ++ [.poll false], ph := .fetch })

/-- R212, R192 to R194: FETCH reads `FRAME[POS]` and no other entry, and either aborts the run with InvalidDigit before
any pin write of the slot, or builds the transaction. -/
def Obligations.FetchReadsOneEntryAndBuildsTheTransaction : Prop :=
  ∀ (s : State) (v : Int), s.ph = .fetch → s.pos < s.cfg.n → Memory.read s.frame s.pos = some v →
    (s.fault ≠ some .pinFault → v < 0 ∨ 9 < v → seqStep s = .next { s with
      trace := s.trace ++ [.rd s.pos v, .fault .invalidDigit]
      fault := some .invalidDigit
      mode := .stopped
      ph := .idle
      oper := none
      status := some (.err .invalidDigit) }) ∧
    (0 ≤ v → v ≤ 9 → ∃ q, segPattern v s.cfg.polarity = some q ∧ seqStep s = .next { s with
      trace := s.trace ++ [.rd s.pos v]
      txbuf := if s.cfg.segFirst = true then [q] ++ maskOf s.cfg s.pos else maskOf s.cfg s.pos ++ [q]
      byteidx := 0
      bitidx := 0
      ph := .latl })

/-- R213, R121, R151 (decisions D6, D15): the phase LATL, success and failure. -/
def Obligations.PhaseLatlStartsTheTransaction : Prop :=
  ∀ s : State, s.ph = .latl → s.fault ≠ some .pinFault →
    (s.okFor 1 → seqStep s = .next { s with
      latch := false
      trace := s.trace ++ [.w .latch false]
      pins := s.pins.tail
      ph := if 0 < s.txbuf.length then .sdat else .lath }) ∧
    (∀ x, s.pins.head? = some (.fail x) → seqStep s = .next { pinFaulted .latch false s with
      latch := x
      out := if s.latch = false ∧ x = true then s.sh else s.out })

/-- R214, R121, R150, R152 (decisions D6, D7, D15): the phases SDAT, CLKH and CLKL: one write each, how `(BYTEIDX,
BITIDX)` and `PH` advance, and how a failed write in any of the five writing phases ends the operation in progress. -/
def Obligations.PhasesOfOneBit : Prop :=
  ∀ s : State, s.fault ≠ some .pinFault →
    (s.ph = .latl → ∀ x, s.pins.head? = some (.fail x) → seqStep s = .next { pinFaulted .latch false s with
      latch := x
      out := if s.latch = false ∧ x = true then s.sh else s.out }) ∧
    (s.ph = .lath → ∀ x, s.pins.head? = some (.fail x) → seqStep s = .next { pinFaulted .latch true s with
      latch := x
      out := if s.latch = false ∧ x = true then s.sh else s.out }) ∧
    (∀ v, s.ph = .sdat → s.txbuf[s.byteidx]? = some v →
      (s.okFor 1 → seqStep s = .next { s with
        data := v.getLsbD (7 - s.bitidx)
        trace := s.trace ++ [.w .data (v.getLsbD (7 - s.bitidx))]
        pins := s.pins.tail
        ph := .clkh }) ∧
      (∀ x, s.pins.head? = some (.fail x) →
        seqStep s = .next { pinFaulted .data (v.getLsbD (7 - s.bitidx)) s with data := x })) ∧
    (s.ph = .clkh →
      (s.okFor 1 → seqStep s = .next { s with
        clock := true
        trace := s.trace ++ [.w .clock true]
        pins := s.pins.tail
        sh := if s.clock = false then shiftIn s.data s.sh else s.sh
        out := if s.clock = false ∧ s.cfg.latchTransparent = true ∧ s.latch = true then shiftIn s.data s.sh else s.out
        ph := .clkl }) ∧
      (∀ x, s.pins.head? = some (.fail x) → seqStep s = .next { pinFaulted .clock true s with
        clock := x
        sh := if s.clock = false ∧ x = true then shiftIn s.data s.sh else s.sh
        out := if s.clock = false ∧ x = true ∧ s.cfg.latchTransparent = true ∧ s.latch = true then shiftIn s.data s.sh
          else s.out })) ∧
    (s.ph = .clkl →
      (s.okFor 1 → s.bitidx < 7 → seqStep s = .next { s with
        clock := false, trace := s.trace ++ [.w .clock false], pins := s.pins.tail
        bitidx := s.bitidx + 1, ph := .sdat }) ∧
      (s.okFor 1 → 7 ≤ s.bitidx → s.byteidx + 1 < s.txbuf.length → seqStep s = .next { s with
        clock := false, trace := s.trace ++ [.w .clock false], pins := s.pins.tail
        bitidx := 0, byteidx := s.byteidx + 1, ph := .sdat }) ∧
      (s.okFor 1 → 7 ≤ s.bitidx → s.txbuf.length ≤ s.byteidx + 1 → s.oper = some .transmit ∨ s.oper = some .run →
        seqStep s = .next { s with
          clock := false, trace := s.trace ++ [.w .clock false], pins := s.pins.tail
          bitidx := 0, byteidx := s.byteidx + 1, ph := .lath }) ∧
      (s.okFor 1 → 7 ≤ s.bitidx → s.txbuf.length ≤ s.byteidx + 1 → s.oper = some .shiftByte →
        seqStep s = .next { s with
          clock := false, trace := s.trace ++ [.w .clock false], pins := s.pins.tail
          bitidx := 0, byteidx := s.byteidx + 1, ph := .idle, mode := .stopped, oper := none, status := some .ok }) ∧
      (∀ x, s.pins.head? = some (.fail x) → seqStep s = .next { pinFaulted .clock false s with
        clock := x
        sh := if s.clock = false ∧ x = true then shiftIn s.data s.sh else s.sh
        out := if s.clock = false ∧ x = true ∧ s.cfg.latchTransparent = true ∧ s.latch = true then shiftIn s.data s.sh
          else s.out }))

/-- R215, R121, R151 (decisions D6, D15): the phase LATH: the commit; while scanning the hold begins in the same step, a
stand-alone TRANSMIT is done. -/
def Obligations.PhaseLathCommitsAndHolds : Prop :=
  ∀ s : State, s.ph = .lath → s.fault ≠ some .pinFault →
    (s.okFor 1 → s.mode = .scanning → seqStep s = .next { s with
      latch := true
      out := if s.latch = true then s.out else s.sh
      trace := s.trace ++ [.w .latch true, .sleep s.slotdur]
      pins := s.pins.tail
      t0 := s.now
      ph := .wait }) ∧
    (s.okFor 1 → s.mode = .stopped → seqStep s = .next { s with
      latch := true
      out := if s.latch = true then s.out else s.sh
      trace := s.trace ++ [.w .latch true]
      pins := s.pins.tail
      ph := .idle
      oper := none
      status := some .ok }) ∧
    (∀ x, s.pins.head? = some (.fail x) → seqStep s = .next { pinFaulted .latch true s with
      latch := x
      out := if s.latch = false ∧ x = true then s.sh else s.out })

/-- R216, R128 (decision D17): in WAIT the block does nothing until `NOW - T0 >= 1000 * SLOTDUR`; then the position
advances, wrapping at `N`, and the next slot begins, with no event. -/
def Obligations.HoldLastsAtLeastTheSlotDuration : Prop :=
  ∀ s : State, s.ph = .wait →
    ((s.now : Rat) - (s.t0 : Rat) < 1000 * s.slotdur → seqStep s = .next s) ∧
    (1000 * s.slotdur ≤ (s.now : Rat) - (s.t0 : Rat) →
      seqStep s = .next { s with pos := (s.pos + 1) % s.cfg.n, ph := .poll })

/-- R250, R128 (decision D17): every hold ends once the time source has advanced far enough: any one advance of at least
some `d` ends it. -/
def Obligations.EveryHoldEnds : Prop :=
  ∀ s : State, s.Inv → s.ph = .wait → ∃ d : Nat, ∀ d' : Nat, d ≤ d' →
    ∃ t u, turn (.tick d') s = .next t ∧ seqStep t = .next u ∧ u.ph = .poll ∧ u.now = s.now + d'

/-- R197, R217 (R217 is derived): one whole slot without a fault or a stop: from its poll to the start of its hold in
`24*K + 4` turns of the block, this is the whole state it leaves. -/
def Obligations.SlotShowsItsDigit : Prop :=
  ∀ (s : State) (v : Int) (q : Byte) (seq : List Byte), s.Inv → s.ph = .poll → s.stopReq = false →
    Memory.read s.frame s.pos = some v → segPattern v s.cfg.polarity = some q →
    seq = (if s.cfg.segFirst = true then [q] ++ maskOf s.cfg s.pos else maskOf s.cfg s.pos ++ [q]) →
    s.okFor (24 * s.cfg.k + 2) →
    seqSteps (24 * s.cfg.k + 4) s = .next { s with
      data := ((sentBits seq).getLast?).getD s.data
      latch := true
      sh := (sentBits seq).reverse
      out := (sentBits seq).reverse
      txbuf := seq
      byteidx := s.cfg.k
      bitidx := 0
      t0 := s.now
      ph := .wait
      trace := s.trace ++ [.poll false, .rd s.pos v] ++ wireTransmit seq ++ [.sleep s.slotdur]
      pins := s.pins.drop (24 * s.cfg.k + 2) }

/-- R203, R204, R210 (decision D18): RUN issued to a ready block with a positive rate starts the scan at position 0 with
the exact slot duration, and clears an InvalidDigit. -/
def Obligations.RunStartsTheScan : Prop :=
  ∀ s : State, s.ready → 0 < s.refreshHz → configWf s.cfg = true →
    exec .run s = .next { s with
      fault := none
      mode := .scanning
      slotdur := 1 / (s.refreshHz * (s.cfg.n : Rat))
      pos := 0
      ph := .poll
      oper := some .run
      status := none }

/-- R208: STOP sets the request, in every state, and touches nothing else. -/
def Obligations.StopSetsTheRequest : Prop :=
  ∀ s : State, exec .stop s = .next { s with stopReq := true }

/-! ### Admission and the sticky pin fault -/

/-- R246, R206, R204, R203 (decisions D18, D20): while scanning, the caller's other operations are turned away by name;
so is RUN with a rate that is not positive or under an ill-formed configuration. The second clause, the refusal while a
stand-alone operation is in progress, is the model's choice (log 13): R221 assumes it never happens. -/
def Obligations.OperationsNotAdmittedAreRefused : Prop :=
  ∀ (s : State) (v : Byte) (len : Nat) (d : Int) (p : Polarity) (i : Nat),
    (s.mode = .scanning →
      exec .run s = .refused .whileScanning ∧ exec (.shiftbyte v) s = .refused .whileScanning ∧
      exec (.transmit len) s = .refused .whileScanning ∧ exec (.encode d p) s = .refused .whileScanning ∧
      exec (.actmask i) s = .refused .whileScanning) ∧
    (s.mode = .stopped → s.ph ≠ .idle →
      exec .run s = .refused .operationInProgress ∧ exec (.shiftbyte v) s = .refused .operationInProgress ∧
      exec (.transmit len) s = .refused .operationInProgress ∧ exec (.encode d p) s = .refused .operationInProgress ∧
      exec (.actmask i) s = .refused .operationInProgress) ∧
    (s.ready → s.refreshHz ≤ 0 → exec .run s = .refused .refreshNotPositive) ∧
    (s.ready → 0 < s.refreshHz → configWf s.cfg = false → exec .run s = .refused .configIllFormed)

/-- R243, R144 (decision D15; log 17): after a PinFault every operation that writes a line is refused. -/
def Obligations.PinFaultRefusesEveryWriter : Prop :=
  ∀ (s : State) (b : Level) (v : Byte) (len : Nat), s.fault = some .pinFault →
    exec (.sdat b) s = .refused .pinFaultSticky ∧ exec .clkh s = .refused .pinFaultSticky ∧
    exec .clkl s = .refused .pinFaultSticky ∧ exec .latl s = .refused .pinFaultSticky ∧
    exec .lath s = .refused .pinFaultSticky ∧
    (s.mode = .stopped → s.ph = .idle →
      exec (.shiftbyte v) s = .refused .pinFaultSticky ∧ exec (.transmit len) s = .refused .pinFaultSticky ∧
      exec .run s = .refused .pinFaultSticky)

/-- R243, R262 (decision D15): once `FAULT` is PinFault, no step of any agent, however many, changes a line, the chain
or `FAULT` again. -/
def Obligations.NothingIsWrittenAfterPinFault : Prop :=
  ∀ (n : Nat) (s t : State), s.Inv → s.fault = some .pinFault → Sys2Proof.core.run n s = .next t →
    t.fault = some .pinFault ∧ t.data = s.data ∧ t.clock = s.clock ∧ t.latch = s.latch ∧ t.sh = s.sh ∧ t.out = s.out

/-! ### Whole-machine rules -/

/-- R50, R47: the state before the first operation, the values the spec gives (all but `MODE` are its decisions D2, D3,
D4, D13, D14, D19). The last clause is no value of the spec: the configuration that reset is built under is the model's
choice (log 10), and it is well-formed. -/
def Obligations.ResetValuesOfTheSpec : Prop :=
  State.reset.mode = .stopped ∧ State.reset.ph = .idle ∧ State.reset.fault = none ∧ State.reset.stopReq = false ∧
  State.reset.pos = 0 ∧ State.reset.txbuf = [] ∧ State.reset.byteidx = 0 ∧ State.reset.bitidx = 0 ∧
  State.reset.res = [] ∧ State.reset.data = false ∧ State.reset.clock = false ∧ State.reset.latch = true ∧
  State.reset.trace = [] ∧ configWf State.reset.cfg = true

/-- The state before the first operation meets the invariants (R52, R31); the fields the spec leaves unspecified have
the model's values (log 5 to 10). -/
def Obligations.ResetMeetsTheInvariants : Prop := State.reset.FullInv

/-- R52, R31, R83 (R52 is derived; log 14): every step of every agent keeps the state invariants. -/
def Obligations.StepKeepsTheStateInvariants : Prop :=
  ∀ s t : State, s.Inv → step s = .next t → t.Inv

/-- R26, R150, R192 to R194 (decisions D2, D6): every step keeps what is known of the transaction in progress. -/
def Obligations.StepKeepsTheTransactionInvariants : Prop :=
  ∀ s t : State, s.FullInv → step s = .next t → t.ShiftInv ∧ t.SlotInv

/-- R60, R52 (R52 is derived): in a state that meets the invariants a step never stops with a fault, unless the caller
names a frame entry that does not exist. -/
def Obligations.InvariantStatesDoNotFault : Prop :=
  ∀ s : State, s.Inv → (∀ a rest, s.sched = a :: rest → inRange s a) → safeStep s

/-- R191, R31 (decisions D14, D15): the transitions of `MODE`, all of them. -/
def Obligations.ModeChangesOnlyAsTheTableSays : Prop :=
  ∀ s t : State, s.Inv → step s = .next t →
    (s.mode = .stopped → t.mode = .scanning →
      s.sched.head? = some (.issue 0x4200#16) ∧ s.ready ∧ 0 < s.refreshHz) ∧
    (s.mode = .scanning → t.mode = .stopped →
      (s.ph = .poll ∧ s.stopReq = true ∧ t.status = some .ok) ∨
      (s.ph = .fetch ∧ t.fault = some .invalidDigit ∧ t.status = some (.err .invalidDigit)) ∨
      ((s.ph = .latl ∨ s.ph = .sdat ∨ s.ph = .clkh ∨ s.ph = .clkl ∨ s.ph = .lath) ∧
        t.fault = some .pinFault ∧ t.status = some (.err .pinFault)))

/-- R25: `POS` moves only at the end of a slot, after the hold, and at RUN entry, where it becomes 0; every other step,
one that ends a run included, keeps it. -/
def Obligations.PositionMovesOnlyAfterTheHold : Prop :=
  (∀ s t : State, step s = .next t →
    t.pos = s.pos ∨
    (s.ph = .wait ∧ 1000 * s.slotdur ≤ (s.now : Rat) - (s.t0 : Rat) ∧ t.pos = (s.pos + 1) % s.cfg.n ∧ t.ph = .poll) ∨
    (s.sched.head? = some (.issue 0x4200#16) ∧ t.pos = 0 ∧ t.mode = .scanning)) ∧
  (∀ s t : State, exec .run s = .next t → t.pos = 0)

/-- R23: the block reads no line, no stage and no output. Two states that differ only there take the same turn of the
block, but for lines, stages and outputs; and every operation of the caller does the same in both, lines, stages and
outputs left as they are. -/
def Obligations.BlockReadsNothingBack : Prop :=
  ∀ (s : State) (d c l : Level) (sh out : List Level),
    (match seqStep s with
    | .next t => ∃ d' c' l' sh' out',
        seqStep { s with data := d, clock := c, latch := l, sh := sh, out := out } =
          .next { t with data := d', clock := c', latch := l', sh := sh', out := out' }
    | .fault r => seqStep { s with data := d, clock := c, latch := l, sh := sh, out := out } = .fault r
    | .refused r => seqStep { s with data := d, clock := c, latch := l, sh := sh, out := out } = .refused r) ∧
    (∀ i : Instr, i.internal = false →
      match exec i s with
      | .next t =>
          t.data = s.data ∧ t.clock = s.clock ∧ t.latch = s.latch ∧ t.sh = s.sh ∧ t.out = s.out ∧
          exec i { s with data := d, clock := c, latch := l, sh := sh, out := out } =
            .next { t with data := d, clock := c, latch := l, sh := sh, out := out }
      | .fault r => exec i { s with data := d, clock := c, latch := l, sh := sh, out := out } = .fault r
      | .refused r => exec i { s with data := d, clock := c, latch := l, sh := sh, out := out } = .refused r)

/-- R62, R199 e (R199 is derived): the block reads one frame entry, `FRAME[POS]`, in phase FETCH and no entry elsewhere,
and writes none. -/
def Obligations.BlockReadsOnlyTheCurrentEntry : Prop :=
  ∀ (s : State) (f : Memory), (s.ph = .fetch → Memory.read f s.pos = Memory.read s.frame s.pos) →
    match seqStep s with
    | .next t => t.frame = s.frame ∧ seqStep { s with frame := f } = .next { t with frame := f }
    | .fault r => seqStep { s with frame := f } = .fault r
    | .refused r => seqStep { s with frame := f } = .refused r

/-- R33, R204, R196 (decisions D13, D18): the block looks at `STOP_REQ` in phase POLL alone, and never at `REFRESH_HZ`
or `TXSEQ` while an operation runs. -/
def Obligations.BlockPollsTheStopRequestOnlyInPoll : Prop :=
  ∀ (s : State) (b : Bool) (hz : Rat) (bs : List Byte), s.ph ≠ .poll ∨ b = s.stopReq →
    match seqStep s with
    | .next t => seqStep { s with stopReq := b, refreshHz := hz, txseq := bs } =
        .next { t with stopReq := b, refreshHz := hz, txseq := bs }
    | .fault r => seqStep { s with stopReq := b, refreshHz := hz, txseq := bs } = .fault r
    | .refused r => seqStep { s with stopReq := b, refreshHz := hz, txseq := bs } = .refused r

/-- R22, R33, R35, R49, R62 (decisions D13, D21): the block writes nothing that is the caller's or the time source's,
and the configuration never changes; `NOW` never decreases and `TRACE` only grows, whoever steps. -/
def Obligations.BlockLeavesTheOtherAgentsState : Prop :=
  (∀ s t : State, seqStep s = .next t →
    t.frame = s.frame ∧ t.stopReq = s.stopReq ∧ t.txseq = s.txseq ∧ t.refreshHz = s.refreshHz ∧ t.now = s.now ∧
    t.res = s.res ∧ t.sched = s.sched) ∧
  (∀ s t : State, step s = .next t → t.cfg = s.cfg ∧ s.now ≤ t.now ∧ ∃ es, t.trace = s.trace ++ es)

/-- R20, R61, R77, R83: a caller's frame write changes the one entry named and nothing else of the machine. That a write
outside `[0, N-1]`, which R60 and R83 do not have, stops the machine by name is the model's choice (log 18). -/
def Obligations.FrameWriteChangesOneEntry : Prop :=
  ∀ (s : State) (i : Nat) (v : Int),
    (i < s.cfg.n → ∃ f, turn (.writeFrame i v) s = .next { s with frame := f } ∧
      Memory.read f i = some v ∧ (∀ j, j ≠ i → Memory.read f j = Memory.read s.frame j) ∧
      (Memory.wf s.cfg.n s.frame = true → Memory.wf s.cfg.n f = true)) ∧
    (s.cfg.n ≤ i → turn (.writeFrame i v) s = .fault .noSuchFrameEntry)

/-- R143, R72 (R143 is derived): inside TRANSMIT and RUN the outputs change only at the `L1`, all at once, whatever
LATCH_TRANSPARENT is. -/
def Obligations.OutputsChangeOnlyAtTheCommit : Prop :=
  ∀ s t : State, s.Inv → s.oper ≠ some .shiftByte → seqStep s = .next t →
    t.out = s.out ∨ (s.ph = .lath ∧ t.out = s.sh)

/-- R209, R52 d, R238 (derived): a run that a stop or an invalid digit ends leaves the bus in order: LATCH high, CLOCK
low. -/
def Obligations.EndedRunLeavesTheBusInOrder : Prop :=
  ∀ s t : State, s.Inv → s.mode = .scanning → step s = .next t → t.mode = .stopped → t.fault ≠ some .pinFault →
    t.latch = true ∧ t.clock = false ∧ t.data = s.data ∧ t.sh = s.sh ∧ t.out = s.out

/-- R156, R194, R155 (R156 is derived; decision D9): the `L1` of a slot makes the position of the slot, and no other,
active, and the segment outputs show the segment byte `q` of that slot's transaction, which is the pattern of a valid
digit `d`. On the display, segment `b` is on exactly where the common-cathode pattern `c` of `d` has bit `b` set,
whatever the polarity, and it is lit at the position of the slot alone. -/
def Obligations.CommitShowsThePositionOfTheSlot : Prop :=
  ∀ s t : State, s.FullInv → s.mode = .scanning → s.ph = .lath → seqStep s = .next t → t.fault ≠ some .pinFault →
    t.pos = s.pos ∧ t.txbuf = s.txbuf ∧ onlyActive t s.pos ∧
    ∃ d q c, 0 ≤ d ∧ d ≤ 9 ∧
      s.txbuf[if s.cfg.segFirst = true then 0 else s.cfg.m]? = some q ∧
      segPattern d s.cfg.polarity = some q ∧ segPattern d .commonCathode = some c ∧
      ∀ b, b < 8 →
        segOut t b = q.getLsbD b ∧
        (s.cfg.polarity = .commonCathode → (segOn t b = true ↔ segOut t b = true)) ∧
        (s.cfg.polarity = .commonAnode → (segOn t b = true ↔ segOut t b = false)) ∧
        segOn t b = c.getLsbD b ∧
        ∀ j, j < s.cfg.n → (lit t j b = true ↔ j = s.pos ∧ c.getLsbD b = true)

/-- R156, R200 (derived): from then on exactly one position is active after every step of the run, the step that ends it
included, a pin fault in the middle of a transaction too. -/
def Obligations.ExactlyOnePositionStaysActive : Prop :=
  ∀ s t : State, s.FullInv → s.mode = .scanning → oneActive s → step s = .next t → oneActive t

/-- R208, R103, R250, R22, R33 (decisions D3, D13, D17): each other turn of the caller, and the time source's, changes
the one thing it names and leaves everything else as it is, in every state of the block: the plain write of `STOP_REQ`,
the ports `TXSEQ` and `REFRESH_HZ`, and the advance of `NOW`. No other step changes one of these, but for STOP (word
0x4300), which sets `STOP_REQ`; so the plain write is the only way it is cleared. That the ports can be written while an
operation is in progress is the model's choice (log 19); of `REFRESH_HZ` during a run R204 says so. -/
def Obligations.PlainWritesAndTicksChangeOneField : Prop :=
  ∀ (s : State) (rest : List Act), configWf s.cfg = true →
    (∀ b, s.sched = .writeStop b :: rest → step s = .next { s with sched := rest, stopReq := b }) ∧
    (∀ bs, s.sched = .writeTxseq bs :: rest → step s = .next { s with sched := rest, txseq := bs }) ∧
    (∀ hz, s.sched = .writeRefreshHz hz :: rest → step s = .next { s with sched := rest, refreshHz := hz }) ∧
    (∀ d, s.sched = .tick d :: rest → step s = .next { s with sched := rest, now := s.now + d }) ∧
    (∀ t, step s = .next t → t.stopReq ≠ s.stopReq →
      s.sched.head? = some (.writeStop t.stopReq) ∨
      (t.stopReq = true ∧ s.sched.head? = some (.issue 0x4300#16))) ∧
    (∀ t, step s = .next t → t.txseq ≠ s.txseq → s.sched.head? = some (.writeTxseq t.txseq)) ∧
    (∀ t, step s = .next t → t.refreshHz ≠ s.refreshHz → s.sched.head? = some (.writeRefreshHz t.refreshHz)) ∧
    (∀ t, step s = .next t → t.now ≠ s.now → ∃ d, s.sched.head? = some (.tick d) ∧ t.now = s.now + d)
end

