-- ==== Sys2Proof/Laws/Operands.lean ====
section
/-! SUPPORT. Small facts about operand assembly and the time arithmetic. -/

namespace Sys2Proof.Machine

@[simp] theorem txseqBytes_length (bs : List Byte) (draw len : Nat) : (txseqBytes bs draw len).length = len := by
  simp [txseqBytes]

@[simp] theorem slotSeq_length (c : Config) (q : Byte) (mask : List Byte) :
    (slotSeq c q mask).length = 1 + mask.length := by
  unfold slotSeq; split <;> simp [Nat.add_comm]

/-- A digit has a pattern exactly when it is in `[0, 9]` (R166). -/
theorem segPattern_isSome_iff (d : Int) (p : Polarity) : (segPattern d p).isSome = true ↔ 0 ≤ d ∧ d ≤ 9 := by
  unfold segPattern
  split
  · rename_i h; simp; omega
  · rename_i h; cases p <;> simp <;> omega

theorem segPattern_eq_none_iff (d : Int) (p : Polarity) : segPattern d p = none ↔ d < 0 ∨ 9 < d := by
  rw [← Option.not_isSome_iff_eq_none, segPattern_isSome_iff]; omega

/-- The slot duration is the exact quotient (R204). -/
theorem slotDuration_eq (hz : Rat) (n : Nat) (h : 0 < hz) : slotDuration hz n = 1 / (hz * n) := by
  have hnum : 0 < hz.num := Rat.num_pos.mpr h
  have hcast : ((hz.num.toNat : Nat) : Rat) = (hz.num : Rat) := by
    have : ((hz.num.toNat : Nat) : Int) = hz.num := Int.toNat_of_nonneg hnum.le
    exact_mod_cast congrArg (fun z : Int => (z : Rat)) this
  have hq : (hz.num : Rat) / hz.den = hz := Rat.num_div_den hz
  have hd : (hz.den : Rat) ≠ 0 := by exact_mod_cast hz.den_nz
  have hn : (hz.num : Rat) ≠ 0 := by exact_mod_cast hnum.ne'
  unfold slotDuration
  rw [Rat.mkRat_eq_div]
  push_cast
  rw [hcast]
  conv_rhs => rw [← hq]
  field_simp

/-- The hold is over exactly when `NOW - T0 >= 1000 * SLOTDUR` as rationals (R128). -/
theorem holdOver_iff (s : State) : s.holdOver = true ↔ 1000 * s.slotdur ≤ (s.now : Rat) - (s.t0 : Rat) := by
  have hd : (0 : Rat) < s.slotdur.den := by exact_mod_cast s.slotdur.den_pos
  have hq : (s.slotdur.num : Rat) / s.slotdur.den = s.slotdur := Rat.num_div_den s.slotdur
  unfold State.holdOver
  rw [decide_eq_true_iff, ← hq, ← mul_div_assoc, div_le_iff₀ hd]
  simp only [hq]
  exact_mod_cast Iff.rfl

/-- What `configWf` says, clause by clause (R6, R178). -/
theorem configWf_iff (c : Config) : configWf c = true ↔
    1 ≤ c.n ∧ 1 ≤ c.m ∧ c.n ≤ 8 * c.m ∧ 4 ≤ c.digitW ∧ c.masktab.length = c.n ∧
    (∀ e ∈ c.masktab, e.length = c.m) ∧ c.selLine.length = c.n ∧ (∀ b ∈ c.selLine, b < 8 * c.m) ∧
    (∀ i, i < c.n → ∀ j, j < c.n → (maskActivates c i j = true ↔ i = j)) := by
  simp only [configWf, Bool.and_eq_true, decide_eq_true_eq, List.all_eq_true, List.mem_range, beq_iff_eq, and_assoc]
  have : (∀ x < c.n, ∀ y < c.n, maskActivates c x y = decide (x = y)) ↔
      (∀ i, i < c.n → ∀ j, j < c.n → (maskActivates c i j = true ↔ i = j)) := by
    constructor
    · intro h i hi j hj; rw [h i hi j hj, decide_eq_true_eq]
    · intro h x hx y hy
      have := h x hx y hy
      by_cases e : x = y
      · rw [this.mpr e, decide_eq_true e]
      · rw [decide_eq_false e, Bool.eq_false_iff]; exact fun h' => e (this.mp h')
  rw [this]

/-- Every entry of the mask table of a well-formed configuration has `M` bytes (R176). -/
theorem maskOf_length {c : Config} (h : configWf c = true) {i : Nat} (hi : i < c.n) : (maskOf c i).length = c.m := by
  obtain ⟨-, -, -, -, hl, he, -⟩ := (configWf_iff c).mp h
  have hi' : i < c.masktab.length := by omega
  have : maskOf c i = c.masktab[i] := by simp [maskOf, List.getD_eq_getElem?_getD, hi']
  rw [this]
  exact he _ (List.getElem_mem hi')

end Sys2Proof.Machine
end

