-- ==== Sys2Proof/Laws/State.lean ====
section
/-! SUPPORT. One lemma per field per named update of the state, so that no proof unfolds a record update. -/

namespace Sys2Proof.Machine

variable (s : State) (e : Event) (k : FaultKind) (p : Line) (l o n : Level)

/-! ### emit -/
@[simp] theorem emit_cfg : (s.emit e).cfg = s.cfg := rfl
@[simp] theorem emit_data : (s.emit e).data = s.data := rfl
@[simp] theorem emit_clock : (s.emit e).clock = s.clock := rfl
@[simp] theorem emit_latch : (s.emit e).latch = s.latch := rfl
@[simp] theorem emit_sh : (s.emit e).sh = s.sh := rfl
@[simp] theorem emit_out : (s.emit e).out = s.out := rfl
@[simp] theorem emit_pos : (s.emit e).pos = s.pos := rfl
@[simp] theorem emit_txbuf : (s.emit e).txbuf = s.txbuf := rfl
@[simp] theorem emit_byteidx : (s.emit e).byteidx = s.byteidx := rfl
@[simp] theorem emit_bitidx : (s.emit e).bitidx = s.bitidx := rfl
@[simp] theorem emit_t0 : (s.emit e).t0 = s.t0 := rfl
@[simp] theorem emit_slotdur : (s.emit e).slotdur = s.slotdur := rfl
@[simp] theorem emit_res : (s.emit e).res = s.res := rfl
@[simp] theorem emit_ph : (s.emit e).ph = s.ph := rfl
@[simp] theorem emit_mode : (s.emit e).mode = s.mode := rfl
@[simp] theorem emit_fault : (s.emit e).fault = s.fault := rfl
@[simp] theorem emit_stopReq : (s.emit e).stopReq = s.stopReq := rfl
@[simp] theorem emit_oper : (s.emit e).oper = s.oper := rfl
@[simp] theorem emit_status : (s.emit e).status = s.status := rfl
@[simp] theorem emit_frame : (s.emit e).frame = s.frame := rfl
@[simp] theorem emit_txseq : (s.emit e).txseq = s.txseq := rfl
@[simp] theorem emit_refreshHz : (s.emit e).refreshHz = s.refreshHz := rfl
@[simp] theorem emit_now : (s.emit e).now = s.now := rfl
@[simp] theorem emit_trace : (s.emit e).trace = s.trace ++ [e] := rfl
@[simp] theorem emit_sched : (s.emit e).sched = s.sched := rfl
@[simp] theorem emit_pins : (s.emit e).pins = s.pins := rfl
@[simp] theorem emit_draws : (s.emit e).draws = s.draws := rfl

/-! ### raise -/
@[simp] theorem raise_cfg : (raise k s).cfg = s.cfg := rfl
@[simp] theorem raise_data : (raise k s).data = s.data := rfl
@[simp] theorem raise_clock : (raise k s).clock = s.clock := rfl
@[simp] theorem raise_latch : (raise k s).latch = s.latch := rfl
@[simp] theorem raise_sh : (raise k s).sh = s.sh := rfl
@[simp] theorem raise_out : (raise k s).out = s.out := rfl
@[simp] theorem raise_pos : (raise k s).pos = s.pos := rfl
@[simp] theorem raise_txbuf : (raise k s).txbuf = s.txbuf := rfl
@[simp] theorem raise_byteidx : (raise k s).byteidx = s.byteidx := rfl
@[simp] theorem raise_bitidx : (raise k s).bitidx = s.bitidx := rfl
@[simp] theorem raise_t0 : (raise k s).t0 = s.t0 := rfl
@[simp] theorem raise_slotdur : (raise k s).slotdur = s.slotdur := rfl
@[simp] theorem raise_res : (raise k s).res = s.res := rfl
@[simp] theorem raise_ph : (raise k s).ph = .idle := rfl
@[simp] theorem raise_mode : (raise k s).mode = .stopped := rfl
@[simp] theorem raise_fault : (raise k s).fault = raisedFault k s.fault := rfl
@[simp] theorem raise_stopReq : (raise k s).stopReq = s.stopReq := rfl
@[simp] theorem raise_oper : (raise k s).oper = none := rfl
@[simp] theorem raise_status : (raise k s).status = some (.err k) := rfl
@[simp] theorem raise_frame : (raise k s).frame = s.frame := rfl
@[simp] theorem raise_txseq : (raise k s).txseq = s.txseq := rfl
@[simp] theorem raise_refreshHz : (raise k s).refreshHz = s.refreshHz := rfl
@[simp] theorem raise_now : (raise k s).now = s.now := rfl
@[simp] theorem raise_trace : (raise k s).trace = s.trace ++ [.fault k] := rfl
@[simp] theorem raise_sched : (raise k s).sched = s.sched := rfl
@[simp] theorem raise_pins : (raise k s).pins = s.pins := rfl
@[simp] theorem raise_draws : (raise k s).draws = s.draws := rfl

/-! ### complete -/
@[simp] theorem complete_cfg : (complete s).cfg = s.cfg := rfl
@[simp] theorem complete_data : (complete s).data = s.data := rfl
@[simp] theorem complete_clock : (complete s).clock = s.clock := rfl
@[simp] theorem complete_latch : (complete s).latch = s.latch := rfl
@[simp] theorem complete_sh : (complete s).sh = s.sh := rfl
@[simp] theorem complete_out : (complete s).out = s.out := rfl
@[simp] theorem complete_pos : (complete s).pos = s.pos := rfl
@[simp] theorem complete_txbuf : (complete s).txbuf = s.txbuf := rfl
@[simp] theorem complete_byteidx : (complete s).byteidx = s.byteidx := rfl
@[simp] theorem complete_bitidx : (complete s).bitidx = s.bitidx := rfl
@[simp] theorem complete_t0 : (complete s).t0 = s.t0 := rfl
@[simp] theorem complete_slotdur : (complete s).slotdur = s.slotdur := rfl
@[simp] theorem complete_res : (complete s).res = s.res := rfl
@[simp] theorem complete_ph : (complete s).ph = .idle := rfl
@[simp] theorem complete_mode : (complete s).mode = .stopped := rfl
@[simp] theorem complete_fault : (complete s).fault = s.fault := rfl
@[simp] theorem complete_stopReq : (complete s).stopReq = s.stopReq := rfl
@[simp] theorem complete_oper : (complete s).oper = none := rfl
@[simp] theorem complete_status : (complete s).status = some .ok := rfl
@[simp] theorem complete_frame : (complete s).frame = s.frame := rfl
@[simp] theorem complete_txseq : (complete s).txseq = s.txseq := rfl
@[simp] theorem complete_refreshHz : (complete s).refreshHz = s.refreshHz := rfl
@[simp] theorem complete_now : (complete s).now = s.now := rfl
@[simp] theorem complete_trace : (complete s).trace = s.trace := rfl
@[simp] theorem complete_sched : (complete s).sched = s.sched := rfl
@[simp] theorem complete_pins : (complete s).pins = s.pins := rfl
@[simp] theorem complete_draws : (complete s).draws = s.draws := rfl

/-! ### attempt -/
@[simp] theorem attempt_cfg : (s.attempt p l).cfg = s.cfg := rfl
@[simp] theorem attempt_data : (s.attempt p l).data = s.data := rfl
@[simp] theorem attempt_clock : (s.attempt p l).clock = s.clock := rfl
@[simp] theorem attempt_latch : (s.attempt p l).latch = s.latch := rfl
@[simp] theorem attempt_sh : (s.attempt p l).sh = s.sh := rfl
@[simp] theorem attempt_out : (s.attempt p l).out = s.out := rfl
@[simp] theorem attempt_pos : (s.attempt p l).pos = s.pos := rfl
@[simp] theorem attempt_txbuf : (s.attempt p l).txbuf = s.txbuf := rfl
@[simp] theorem attempt_byteidx : (s.attempt p l).byteidx = s.byteidx := rfl
@[simp] theorem attempt_bitidx : (s.attempt p l).bitidx = s.bitidx := rfl
@[simp] theorem attempt_t0 : (s.attempt p l).t0 = s.t0 := rfl
@[simp] theorem attempt_slotdur : (s.attempt p l).slotdur = s.slotdur := rfl
@[simp] theorem attempt_res : (s.attempt p l).res = s.res := rfl
@[simp] theorem attempt_ph : (s.attempt p l).ph = s.ph := rfl
@[simp] theorem attempt_mode : (s.attempt p l).mode = s.mode := rfl
@[simp] theorem attempt_fault : (s.attempt p l).fault = s.fault := rfl
@[simp] theorem attempt_stopReq : (s.attempt p l).stopReq = s.stopReq := rfl
@[simp] theorem attempt_oper : (s.attempt p l).oper = s.oper := rfl
@[simp] theorem attempt_status : (s.attempt p l).status = s.status := rfl
@[simp] theorem attempt_frame : (s.attempt p l).frame = s.frame := rfl
@[simp] theorem attempt_txseq : (s.attempt p l).txseq = s.txseq := rfl
@[simp] theorem attempt_refreshHz : (s.attempt p l).refreshHz = s.refreshHz := rfl
@[simp] theorem attempt_now : (s.attempt p l).now = s.now := rfl
@[simp] theorem attempt_trace : (s.attempt p l).trace = s.trace ++ [.w p l] := rfl
@[simp] theorem attempt_sched : (s.attempt p l).sched = s.sched := rfl
@[simp] theorem attempt_pins : (s.attempt p l).pins = s.pins.tail := rfl
@[simp] theorem attempt_draws : (s.attempt p l).draws = s.draws := rfl

/-! ### clockEdge -/
@[simp] theorem clockEdge_cfg : (clockEdge s).cfg = s.cfg := rfl
@[simp] theorem clockEdge_data : (clockEdge s).data = s.data := rfl
@[simp] theorem clockEdge_clock : (clockEdge s).clock = s.clock := rfl
@[simp] theorem clockEdge_latch : (clockEdge s).latch = s.latch := rfl
@[simp] theorem clockEdge_sh : (clockEdge s).sh = shiftIn s.data s.sh := rfl
@[simp] theorem clockEdge_out : (clockEdge s).out = if s.cfg.latchTransparent && s.latch then shiftIn s.data s.sh else s.out := rfl
@[simp] theorem clockEdge_pos : (clockEdge s).pos = s.pos := rfl
@[simp] theorem clockEdge_txbuf : (clockEdge s).txbuf = s.txbuf := rfl
@[simp] theorem clockEdge_byteidx : (clockEdge s).byteidx = s.byteidx := rfl
@[simp] theorem clockEdge_bitidx : (clockEdge s).bitidx = s.bitidx := rfl
@[simp] theorem clockEdge_t0 : (clockEdge s).t0 = s.t0 := rfl
@[simp] theorem clockEdge_slotdur : (clockEdge s).slotdur = s.slotdur := rfl
@[simp] theorem clockEdge_res : (clockEdge s).res = s.res := rfl
@[simp] theorem clockEdge_ph : (clockEdge s).ph = s.ph := rfl
@[simp] theorem clockEdge_mode : (clockEdge s).mode = s.mode := rfl
@[simp] theorem clockEdge_fault : (clockEdge s).fault = s.fault := rfl
@[simp] theorem clockEdge_stopReq : (clockEdge s).stopReq = s.stopReq := rfl
@[simp] theorem clockEdge_oper : (clockEdge s).oper = s.oper := rfl
@[simp] theorem clockEdge_status : (clockEdge s).status = s.status := rfl
@[simp] theorem clockEdge_frame : (clockEdge s).frame = s.frame := rfl
@[simp] theorem clockEdge_txseq : (clockEdge s).txseq = s.txseq := rfl
@[simp] theorem clockEdge_refreshHz : (clockEdge s).refreshHz = s.refreshHz := rfl
@[simp] theorem clockEdge_now : (clockEdge s).now = s.now := rfl
@[simp] theorem clockEdge_trace : (clockEdge s).trace = s.trace := rfl
@[simp] theorem clockEdge_sched : (clockEdge s).sched = s.sched := rfl
@[simp] theorem clockEdge_pins : (clockEdge s).pins = s.pins := rfl
@[simp] theorem clockEdge_draws : (clockEdge s).draws = s.draws := rfl

/-! ### latchEdge -/
@[simp] theorem latchEdge_cfg : (latchEdge s).cfg = s.cfg := rfl
@[simp] theorem latchEdge_data : (latchEdge s).data = s.data := rfl
@[simp] theorem latchEdge_clock : (latchEdge s).clock = s.clock := rfl
@[simp] theorem latchEdge_latch : (latchEdge s).latch = s.latch := rfl
@[simp] theorem latchEdge_sh : (latchEdge s).sh = s.sh := rfl
@[simp] theorem latchEdge_out : (latchEdge s).out = s.sh := rfl
@[simp] theorem latchEdge_pos : (latchEdge s).pos = s.pos := rfl
@[simp] theorem latchEdge_txbuf : (latchEdge s).txbuf = s.txbuf := rfl
@[simp] theorem latchEdge_byteidx : (latchEdge s).byteidx = s.byteidx := rfl
@[simp] theorem latchEdge_bitidx : (latchEdge s).bitidx = s.bitidx := rfl
@[simp] theorem latchEdge_t0 : (latchEdge s).t0 = s.t0 := rfl
@[simp] theorem latchEdge_slotdur : (latchEdge s).slotdur = s.slotdur := rfl
@[simp] theorem latchEdge_res : (latchEdge s).res = s.res := rfl
@[simp] theorem latchEdge_ph : (latchEdge s).ph = s.ph := rfl
@[simp] theorem latchEdge_mode : (latchEdge s).mode = s.mode := rfl
@[simp] theorem latchEdge_fault : (latchEdge s).fault = s.fault := rfl
@[simp] theorem latchEdge_stopReq : (latchEdge s).stopReq = s.stopReq := rfl
@[simp] theorem latchEdge_oper : (latchEdge s).oper = s.oper := rfl
@[simp] theorem latchEdge_status : (latchEdge s).status = s.status := rfl
@[simp] theorem latchEdge_frame : (latchEdge s).frame = s.frame := rfl
@[simp] theorem latchEdge_txseq : (latchEdge s).txseq = s.txseq := rfl
@[simp] theorem latchEdge_refreshHz : (latchEdge s).refreshHz = s.refreshHz := rfl
@[simp] theorem latchEdge_now : (latchEdge s).now = s.now := rfl
@[simp] theorem latchEdge_trace : (latchEdge s).trace = s.trace := rfl
@[simp] theorem latchEdge_sched : (latchEdge s).sched = s.sched := rfl
@[simp] theorem latchEdge_pins : (latchEdge s).pins = s.pins := rfl
@[simp] theorem latchEdge_draws : (latchEdge s).draws = s.draws := rfl

/-! ### setLevel_data -/
@[simp] theorem setLevel_data_cfg : (s.setLevel .data l).cfg = s.cfg := rfl
@[simp] theorem setLevel_data_data : (s.setLevel .data l).data = l := rfl
@[simp] theorem setLevel_data_clock : (s.setLevel .data l).clock = s.clock := rfl
@[simp] theorem setLevel_data_latch : (s.setLevel .data l).latch = s.latch := rfl
@[simp] theorem setLevel_data_sh : (s.setLevel .data l).sh = s.sh := rfl
@[simp] theorem setLevel_data_out : (s.setLevel .data l).out = s.out := rfl
@[simp] theorem setLevel_data_pos : (s.setLevel .data l).pos = s.pos := rfl
@[simp] theorem setLevel_data_txbuf : (s.setLevel .data l).txbuf = s.txbuf := rfl
@[simp] theorem setLevel_data_byteidx : (s.setLevel .data l).byteidx = s.byteidx := rfl
@[simp] theorem setLevel_data_bitidx : (s.setLevel .data l).bitidx = s.bitidx := rfl
@[simp] theorem setLevel_data_t0 : (s.setLevel .data l).t0 = s.t0 := rfl
@[simp] theorem setLevel_data_slotdur : (s.setLevel .data l).slotdur = s.slotdur := rfl
@[simp] theorem setLevel_data_res : (s.setLevel .data l).res = s.res := rfl
@[simp] theorem setLevel_data_ph : (s.setLevel .data l).ph = s.ph := rfl
@[simp] theorem setLevel_data_mode : (s.setLevel .data l).mode = s.mode := rfl
@[simp] theorem setLevel_data_fault : (s.setLevel .data l).fault = s.fault := rfl
@[simp] theorem setLevel_data_stopReq : (s.setLevel .data l).stopReq = s.stopReq := rfl
@[simp] theorem setLevel_data_oper : (s.setLevel .data l).oper = s.oper := rfl
@[simp] theorem setLevel_data_status : (s.setLevel .data l).status = s.status := rfl
@[simp] theorem setLevel_data_frame : (s.setLevel .data l).frame = s.frame := rfl
@[simp] theorem setLevel_data_txseq : (s.setLevel .data l).txseq = s.txseq := rfl
@[simp] theorem setLevel_data_refreshHz : (s.setLevel .data l).refreshHz = s.refreshHz := rfl
@[simp] theorem setLevel_data_now : (s.setLevel .data l).now = s.now := rfl
@[simp] theorem setLevel_data_trace : (s.setLevel .data l).trace = s.trace := rfl
@[simp] theorem setLevel_data_sched : (s.setLevel .data l).sched = s.sched := rfl
@[simp] theorem setLevel_data_pins : (s.setLevel .data l).pins = s.pins := rfl
@[simp] theorem setLevel_data_draws : (s.setLevel .data l).draws = s.draws := rfl

/-! ### setLevel_clock -/
@[simp] theorem setLevel_clock_cfg : (s.setLevel .clock l).cfg = s.cfg := rfl
@[simp] theorem setLevel_clock_data : (s.setLevel .clock l).data = s.data := rfl
@[simp] theorem setLevel_clock_clock : (s.setLevel .clock l).clock = l := rfl
@[simp] theorem setLevel_clock_latch : (s.setLevel .clock l).latch = s.latch := rfl
@[simp] theorem setLevel_clock_sh : (s.setLevel .clock l).sh = s.sh := rfl
@[simp] theorem setLevel_clock_out : (s.setLevel .clock l).out = s.out := rfl
@[simp] theorem setLevel_clock_pos : (s.setLevel .clock l).pos = s.pos := rfl
@[simp] theorem setLevel_clock_txbuf : (s.setLevel .clock l).txbuf = s.txbuf := rfl
@[simp] theorem setLevel_clock_byteidx : (s.setLevel .clock l).byteidx = s.byteidx := rfl
@[simp] theorem setLevel_clock_bitidx : (s.setLevel .clock l).bitidx = s.bitidx := rfl
@[simp] theorem setLevel_clock_t0 : (s.setLevel .clock l).t0 = s.t0 := rfl
@[simp] theorem setLevel_clock_slotdur : (s.setLevel .clock l).slotdur = s.slotdur := rfl
@[simp] theorem setLevel_clock_res : (s.setLevel .clock l).res = s.res := rfl
@[simp] theorem setLevel_clock_ph : (s.setLevel .clock l).ph = s.ph := rfl
@[simp] theorem setLevel_clock_mode : (s.setLevel .clock l).mode = s.mode := rfl
@[simp] theorem setLevel_clock_fault : (s.setLevel .clock l).fault = s.fault := rfl
@[simp] theorem setLevel_clock_stopReq : (s.setLevel .clock l).stopReq = s.stopReq := rfl
@[simp] theorem setLevel_clock_oper : (s.setLevel .clock l).oper = s.oper := rfl
@[simp] theorem setLevel_clock_status : (s.setLevel .clock l).status = s.status := rfl
@[simp] theorem setLevel_clock_frame : (s.setLevel .clock l).frame = s.frame := rfl
@[simp] theorem setLevel_clock_txseq : (s.setLevel .clock l).txseq = s.txseq := rfl
@[simp] theorem setLevel_clock_refreshHz : (s.setLevel .clock l).refreshHz = s.refreshHz := rfl
@[simp] theorem setLevel_clock_now : (s.setLevel .clock l).now = s.now := rfl
@[simp] theorem setLevel_clock_trace : (s.setLevel .clock l).trace = s.trace := rfl
@[simp] theorem setLevel_clock_sched : (s.setLevel .clock l).sched = s.sched := rfl
@[simp] theorem setLevel_clock_pins : (s.setLevel .clock l).pins = s.pins := rfl
@[simp] theorem setLevel_clock_draws : (s.setLevel .clock l).draws = s.draws := rfl

/-! ### setLevel_latch -/
@[simp] theorem setLevel_latch_cfg : (s.setLevel .latch l).cfg = s.cfg := rfl
@[simp] theorem setLevel_latch_data : (s.setLevel .latch l).data = s.data := rfl
@[simp] theorem setLevel_latch_clock : (s.setLevel .latch l).clock = s.clock := rfl
@[simp] theorem setLevel_latch_latch : (s.setLevel .latch l).latch = l := rfl
@[simp] theorem setLevel_latch_sh : (s.setLevel .latch l).sh = s.sh := rfl
@[simp] theorem setLevel_latch_out : (s.setLevel .latch l).out = s.out := rfl
@[simp] theorem setLevel_latch_pos : (s.setLevel .latch l).pos = s.pos := rfl
@[simp] theorem setLevel_latch_txbuf : (s.setLevel .latch l).txbuf = s.txbuf := rfl
@[simp] theorem setLevel_latch_byteidx : (s.setLevel .latch l).byteidx = s.byteidx := rfl
@[simp] theorem setLevel_latch_bitidx : (s.setLevel .latch l).bitidx = s.bitidx := rfl
@[simp] theorem setLevel_latch_t0 : (s.setLevel .latch l).t0 = s.t0 := rfl
@[simp] theorem setLevel_latch_slotdur : (s.setLevel .latch l).slotdur = s.slotdur := rfl
@[simp] theorem setLevel_latch_res : (s.setLevel .latch l).res = s.res := rfl
@[simp] theorem setLevel_latch_ph : (s.setLevel .latch l).ph = s.ph := rfl
@[simp] theorem setLevel_latch_mode : (s.setLevel .latch l).mode = s.mode := rfl
@[simp] theorem setLevel_latch_fault : (s.setLevel .latch l).fault = s.fault := rfl
@[simp] theorem setLevel_latch_stopReq : (s.setLevel .latch l).stopReq = s.stopReq := rfl
@[simp] theorem setLevel_latch_oper : (s.setLevel .latch l).oper = s.oper := rfl
@[simp] theorem setLevel_latch_status : (s.setLevel .latch l).status = s.status := rfl
@[simp] theorem setLevel_latch_frame : (s.setLevel .latch l).frame = s.frame := rfl
@[simp] theorem setLevel_latch_txseq : (s.setLevel .latch l).txseq = s.txseq := rfl
@[simp] theorem setLevel_latch_refreshHz : (s.setLevel .latch l).refreshHz = s.refreshHz := rfl
@[simp] theorem setLevel_latch_now : (s.setLevel .latch l).now = s.now := rfl
@[simp] theorem setLevel_latch_trace : (s.setLevel .latch l).trace = s.trace := rfl
@[simp] theorem setLevel_latch_sched : (s.setLevel .latch l).sched = s.sched := rfl
@[simp] theorem setLevel_latch_pins : (s.setLevel .latch l).pins = s.pins := rfl
@[simp] theorem setLevel_latch_draws : (s.setLevel .latch l).draws = s.draws := rfl

/-! ### chainReact -/
@[simp] theorem chainReact_cfg : (chainReact p o n s).cfg = s.cfg := by cases p <;> cases o <;> cases n <;> rfl
@[simp] theorem chainReact_data : (chainReact p o n s).data = s.data := by cases p <;> cases o <;> cases n <;> rfl
@[simp] theorem chainReact_clock : (chainReact p o n s).clock = s.clock := by cases p <;> cases o <;> cases n <;> rfl
@[simp] theorem chainReact_latch : (chainReact p o n s).latch = s.latch := by cases p <;> cases o <;> cases n <;> rfl
@[simp] theorem chainReact_pos : (chainReact p o n s).pos = s.pos := by cases p <;> cases o <;> cases n <;> rfl
@[simp] theorem chainReact_txbuf : (chainReact p o n s).txbuf = s.txbuf := by cases p <;> cases o <;> cases n <;> rfl
@[simp] theorem chainReact_byteidx : (chainReact p o n s).byteidx = s.byteidx := by cases p <;> cases o <;> cases n <;> rfl
@[simp] theorem chainReact_bitidx : (chainReact p o n s).bitidx = s.bitidx := by cases p <;> cases o <;> cases n <;> rfl
@[simp] theorem chainReact_t0 : (chainReact p o n s).t0 = s.t0 := by cases p <;> cases o <;> cases n <;> rfl
@[simp] theorem chainReact_slotdur : (chainReact p o n s).slotdur = s.slotdur := by cases p <;> cases o <;> cases n <;> rfl
@[simp] theorem chainReact_res : (chainReact p o n s).res = s.res := by cases p <;> cases o <;> cases n <;> rfl
@[simp] theorem chainReact_ph : (chainReact p o n s).ph = s.ph := by cases p <;> cases o <;> cases n <;> rfl
@[simp] theorem chainReact_mode : (chainReact p o n s).mode = s.mode := by cases p <;> cases o <;> cases n <;> rfl
@[simp] theorem chainReact_fault : (chainReact p o n s).fault = s.fault := by cases p <;> cases o <;> cases n <;> rfl
@[simp] theorem chainReact_stopReq : (chainReact p o n s).stopReq = s.stopReq := by cases p <;> cases o <;> cases n <;> rfl
@[simp] theorem chainReact_oper : (chainReact p o n s).oper = s.oper := by cases p <;> cases o <;> cases n <;> rfl
@[simp] theorem chainReact_status : (chainReact p o n s).status = s.status := by cases p <;> cases o <;> cases n <;> rfl
@[simp] theorem chainReact_frame : (chainReact p o n s).frame = s.frame := by cases p <;> cases o <;> cases n <;> rfl
@[simp] theorem chainReact_txseq : (chainReact p o n s).txseq = s.txseq := by cases p <;> cases o <;> cases n <;> rfl
@[simp] theorem chainReact_refreshHz : (chainReact p o n s).refreshHz = s.refreshHz := by cases p <;> cases o <;> cases n <;> rfl
@[simp] theorem chainReact_now : (chainReact p o n s).now = s.now := by cases p <;> cases o <;> cases n <;> rfl
@[simp] theorem chainReact_trace : (chainReact p o n s).trace = s.trace := by cases p <;> cases o <;> cases n <;> rfl
@[simp] theorem chainReact_sched : (chainReact p o n s).sched = s.sched := by cases p <;> cases o <;> cases n <;> rfl
@[simp] theorem chainReact_pins : (chainReact p o n s).pins = s.pins := by cases p <;> cases o <;> cases n <;> rfl
@[simp] theorem chainReact_draws : (chainReact p o n s).draws = s.draws := by cases p <;> cases o <;> cases n <;> rfl

/-! ### drive -/
@[simp] theorem drive_cfg : (drive p l s).cfg = s.cfg := by
  cases p <;> simp [drive, State.setLevel]
@[simp] theorem drive_pos : (drive p l s).pos = s.pos := by
  cases p <;> simp [drive, State.setLevel]
@[simp] theorem drive_txbuf : (drive p l s).txbuf = s.txbuf := by
  cases p <;> simp [drive, State.setLevel]
@[simp] theorem drive_byteidx : (drive p l s).byteidx = s.byteidx := by
  cases p <;> simp [drive, State.setLevel]
@[simp] theorem drive_bitidx : (drive p l s).bitidx = s.bitidx := by
  cases p <;> simp [drive, State.setLevel]
@[simp] theorem drive_t0 : (drive p l s).t0 = s.t0 := by
  cases p <;> simp [drive, State.setLevel]
@[simp] theorem drive_slotdur : (drive p l s).slotdur = s.slotdur := by
  cases p <;> simp [drive, State.setLevel]
@[simp] theorem drive_res : (drive p l s).res = s.res := by
  cases p <;> simp [drive, State.setLevel]
@[simp] theorem drive_ph : (drive p l s).ph = s.ph := by
  cases p <;> simp [drive, State.setLevel]
@[simp] theorem drive_mode : (drive p l s).mode = s.mode := by
  cases p <;> simp [drive, State.setLevel]
@[simp] theorem drive_fault : (drive p l s).fault = s.fault := by
  cases p <;> simp [drive, State.setLevel]
@[simp] theorem drive_stopReq : (drive p l s).stopReq = s.stopReq := by
  cases p <;> simp [drive, State.setLevel]
@[simp] theorem drive_oper : (drive p l s).oper = s.oper := by
  cases p <;> simp [drive, State.setLevel]
@[simp] theorem drive_status : (drive p l s).status = s.status := by
  cases p <;> simp [drive, State.setLevel]
@[simp] theorem drive_frame : (drive p l s).frame = s.frame := by
  cases p <;> simp [drive, State.setLevel]
@[simp] theorem drive_txseq : (drive p l s).txseq = s.txseq := by
  cases p <;> simp [drive, State.setLevel]
@[simp] theorem drive_refreshHz : (drive p l s).refreshHz = s.refreshHz := by
  cases p <;> simp [drive, State.setLevel]
@[simp] theorem drive_now : (drive p l s).now = s.now := by
  cases p <;> simp [drive, State.setLevel]
@[simp] theorem drive_trace : (drive p l s).trace = s.trace := by
  cases p <;> simp [drive, State.setLevel]
@[simp] theorem drive_sched : (drive p l s).sched = s.sched := by
  cases p <;> simp [drive, State.setLevel]
@[simp] theorem drive_pins : (drive p l s).pins = s.pins := by
  cases p <;> simp [drive, State.setLevel]
@[simp] theorem drive_draws : (drive p l s).draws = s.draws := by
  cases p <;> simp [drive, State.setLevel]

end Sys2Proof.Machine
end

