-- ==== Sys2Proof/Laws/Ops.lean ====
section
/-! SUPPORT. What each shared operation can do, said once: the chain's reaction, the pin write, admission, and the frame
store. -/

namespace Sys2Proof.Machine

/-! ### The chain -/

@[simp] theorem shiftIn_length (d : Level) (sh : List Level) : (shiftIn d sh).length = sh.length := by
  simp [shiftIn]

/-- R150: stage 0 takes the DATA level. -/
theorem shiftIn_zero (d : Level) (sh : List Level) (h : 0 < sh.length) : (shiftIn d sh)[0]? = some d := by
  simp [shiftIn, h]

/-- R150: every other stage takes the content of the stage before it. -/
theorem shiftIn_succ (d : Level) (sh : List Level) (i : Nat) (h : i + 1 < sh.length) :
    (shiftIn d sh)[i + 1]? = sh[i]? := by
  simp [shiftIn, h]

/-- Shifting after a shift keeps pushing from the low end. -/
theorem shiftIn_take (d : Level) (bits sh : List Level) :
    shiftIn d ((bits ++ sh).take sh.length) = ((d :: bits) ++ sh).take sh.length := by
  have hlen : ((bits ++ sh).take sh.length).length = sh.length := by simp
  unfold shiftIn
  rw [hlen]
  cases sh.length with
  | zero => simp
  | succ k => simp [List.take_take]

@[simp] theorem drive_data_data (s : State) (l : Level) : (drive .data l s).data = l := rfl
@[simp] theorem drive_data_clock (s : State) (l : Level) : (drive .data l s).clock = s.clock := rfl
@[simp] theorem drive_data_latch (s : State) (l : Level) : (drive .data l s).latch = s.latch := rfl
@[simp] theorem drive_data_sh (s : State) (l : Level) : (drive .data l s).sh = s.sh := rfl
@[simp] theorem drive_data_out (s : State) (l : Level) : (drive .data l s).out = s.out := rfl
@[simp] theorem drive_clock_data (s : State) (l : Level) : (drive .clock l s).data = s.data := by
  cases hc : s.clock <;> cases l <;> simp [drive, chainReact, State.level, hc]
@[simp] theorem drive_clock_clock (s : State) (l : Level) : (drive .clock l s).clock = l := by
  cases hc : s.clock <;> cases l <;> simp [drive, chainReact, State.level, hc]
@[simp] theorem drive_clock_latch (s : State) (l : Level) : (drive .clock l s).latch = s.latch := by
  cases hc : s.clock <;> cases l <;> simp [drive, chainReact, State.level, hc]
@[simp] theorem drive_latch_data (s : State) (l : Level) : (drive .latch l s).data = s.data := by
  cases hc : s.latch <;> cases l <;> simp [drive, chainReact, State.level, hc]
@[simp] theorem drive_latch_clock (s : State) (l : Level) : (drive .latch l s).clock = s.clock := by
  cases hc : s.latch <;> cases l <;> simp [drive, chainReact, State.level, hc]
@[simp] theorem drive_latch_latch (s : State) (l : Level) : (drive .latch l s).latch = l := by
  cases hc : s.latch <;> cases l <;> simp [drive, chainReact, State.level, hc]
@[simp] theorem drive_latch_sh (s : State) (l : Level) : (drive .latch l s).sh = s.sh := by
  cases hc : s.latch <;> cases l <;> simp [drive, chainReact, State.level, hc]

/-- R150: the stages after a write of CLOCK. -/
theorem drive_clock_sh (s : State) (l : Level) :
    (drive .clock l s).sh = if s.clock = false ∧ l = true then shiftIn s.data s.sh else s.sh := by
  cases hc : s.clock <;> cases l <;> simp [drive, chainReact, State.level, hc]

/-- R150, R152: the outputs after a write of CLOCK. -/
theorem drive_clock_out (s : State) (l : Level) :
    (drive .clock l s).out =
      if s.clock = false ∧ l = true ∧ s.cfg.latchTransparent = true ∧ s.latch = true then shiftIn s.data s.sh
      else s.out := by
  cases hc : s.clock <;> cases l <;> simp [drive, chainReact, State.level, hc]

/-- R151: the outputs after a write of LATCH. -/
theorem drive_latch_out (s : State) (l : Level) :
    (drive .latch l s).out = if s.latch = false ∧ l = true then s.sh else s.out := by
  cases hc : s.latch <;> cases l <;> simp [drive, chainReact, State.level, hc]

@[simp] theorem drive_sh_length (p : Line) (l : Level) (s : State) : (drive p l s).sh.length = s.sh.length := by
  cases p
  · rfl
  · rw [drive_clock_sh]; split <;> simp
  · simp

/-! ### The pin write -/

theorem pinWrite_ok (p : Line) (l : Level) (s : State) (h : s.pinAnswer = .ok) :
    pinWrite p l s = drive p l (s.attempt p l) := by
  simp [pinWrite, h]

theorem pinWrite_fail (p : Line) (l x : Level) (s : State) (h : s.pinAnswer = .fail x) :
    pinWrite p l s = raise .pinFault (drive p x (s.attempt p l)) := by
  simp [pinWrite, h]

/-- All a pin micro-operation can do when it answers a next state: the write, or PinFault with a drawn level. -/
theorem pinOp_next {p : Line} {l : Level} {s t : State} (h : pinOp p l s = .next t) :
    s.fault ≠ some .pinFault ∧
      (t = drive p l (s.attempt p l) ∨ ∃ x, t = raise .pinFault (drive p x (s.attempt p l))) := by
  unfold pinOp at h
  split at h
  · cases h
  · rename_i hf
    refine ⟨hf, ?_⟩
    injection h with h
    subst h
    cases ha : s.pinAnswer with
    | ok => exact .inl (pinWrite_ok p l s ha)
    | fail x => exact .inr ⟨x, pinWrite_fail p l x s ha⟩

/-- A pin micro-operation stops by name exactly after a pin fault. -/
theorem pinOp_of_pinFault (p : Line) (l : Level) (s : State) (h : s.fault = some .pinFault) :
    pinOp p l s = .refused .pinFaultSticky := by
  simp [pinOp, h]

theorem pinOp_of_noPinFault (p : Line) (l : Level) (s : State) (h : s.fault ≠ some .pinFault) :
    pinOp p l s = .next (pinWrite p l s) := by
  simp [pinOp, h]

/-! ### Continuing after an operation -/

theorem proceed_next {o : Outcome} {f : State → Outcome} {t : State} (h : proceed o f = .next t) :
    ∃ u, o = .next u ∧ ((u.fault = some .pinFault ∧ t = u) ∨ (u.fault ≠ some .pinFault ∧ f u = .next t)) := by
  cases o with
  | next u =>
    refine ⟨u, rfl, ?_⟩
    unfold proceed at h
    simp only at h
    split at h
    · rename_i hf; injection h with h; exact .inl ⟨hf, h.symm⟩
    · rename_i hf; exact .inr ⟨hf, h⟩
  | fault r => cases h
  | refused r => cases h

@[simp] theorem proceed_of_noPinFault (u : State) (f : State → Outcome) (h : u.fault ≠ some .pinFault) :
    proceed (.next u) f = f u := by
  simp [proceed, h]

@[simp] theorem proceed_of_pinFault (u : State) (f : State → Outcome) (h : u.fault = some .pinFault) :
    proceed (.next u) f = .next u := by
  simp [proceed, h]

/-! ### The flag register -/

@[simp] theorem clearedFault_pinFault_iff (f : Option FaultKind) :
    clearedFault f = some .pinFault ↔ f = some .pinFault := by
  unfold clearedFault; split <;> simp_all

@[simp] theorem raisedFault_pinFault (f : Option FaultKind) : raisedFault .pinFault f = some .pinFault := by
  unfold raisedFault; split <;> rfl

@[simp] theorem raisedFault_invalidDigit_iff (f : Option FaultKind) :
    raisedFault .invalidDigit f = some .pinFault ↔ f = some .pinFault := by
  unfold raisedFault; split <;> simp_all

/-! ### Admission -/

theorem whenIdle_next {s t : State} {o : Outcome} (h : whenIdle s o = .next t) :
    s.mode = .stopped ∧ s.ph = .idle ∧ o = .next t := by
  unfold whenIdle at h
  cases hm : s.mode with
  | scanning => simp [hm] at h
  | stopped =>
    simp only [hm] at h
    by_cases hp : s.ph = .idle
    · simp [hp] at h; exact ⟨rfl, hp, h⟩
    · simp [hp] at h

theorem unlessPinFault_next {s t : State} {o : Outcome} (h : unlessPinFault s o = .next t) :
    s.fault ≠ some .pinFault ∧ o = .next t := by
  unfold unlessPinFault at h
  split at h
  · cases h
  · rename_i hf; exact ⟨hf, h⟩

theorem whenIdle_of_idle (s : State) (o : Outcome) (hm : s.mode = .stopped) (hp : s.ph = .idle) : whenIdle s o = o := by
  simp [whenIdle, hm, hp]

theorem unlessPinFault_of_noPinFault (s : State) (o : Outcome) (h : s.fault ≠ some .pinFault) :
    unlessPinFault s o = o := by
  simp [unlessPinFault, h]

/-! ### The frame store -/

theorem Memory.read_write_same (f : Memory) (i : Nat) (v : Int) : Memory.read (Memory.write f i v) i = some v := by
  induction f with
  | nil => simp [Memory.write, Memory.read]
  | cons c rest ih =>
    obtain ⟨j, w⟩ := c
    simp only [Memory.write]
    split
    · simp [Memory.read]
    · split
      · simp [Memory.read]
      · rename_i h1 h2
        have : j ≠ i := fun e => h2 e.symm
        simp [Memory.read, this, ih]

theorem Memory.read_write_other (f : Memory) (i j : Nat) (v : Int) (h : j ≠ i) :
    Memory.read (Memory.write f i v) j = Memory.read f j := by
  induction f with
  | nil => simp [Memory.write, Memory.read, h.symm]
  | cons c rest ih =>
    obtain ⟨k, w⟩ := c
    simp only [Memory.write]
    split
    · simp [Memory.read, h.symm]
    · split
      · rename_i h2; subst h2; simp [Memory.read, h.symm]
      · simp [Memory.read, ih]

theorem Memory.mem_write {f : Memory} {i : Nat} {v : Int} {c : Nat × Int} (h : c ∈ Memory.write f i v) :
    c = (i, v) ∨ c ∈ f := by
  induction f with
  | nil => simp [Memory.write] at h; exact .inl h
  | cons d rest ih =>
    obtain ⟨k, w⟩ := d
    simp only [Memory.write] at h
    split at h
    · simp only [List.mem_cons] at h ⊢; tauto
    · split at h
      · simp only [List.mem_cons] at h ⊢; tauto
      · simp only [List.mem_cons] at h ⊢
        rcases h with h | h
        · exact .inr (.inl h)
        · rcases ih h with h | h
          · exact .inl h
          · exact .inr (.inr h)

theorem Memory.wf_iff (n : Nat) (f : Memory) :
    Memory.wf n f = true ↔ (f.map Prod.fst).Pairwise (· < ·) ∧ ∀ c ∈ f, c.1 < n := by
  simp [Memory.wf]

/-- A write keeps the positions strictly rising. -/
theorem Memory.rising_write (f : Memory) (i : Nat) (v : Int) (h : (f.map Prod.fst).Pairwise (· < ·)) :
    ((Memory.write f i v).map Prod.fst).Pairwise (· < ·) := by
  induction f with
  | nil => simp [Memory.write]
  | cons d rest ih =>
    obtain ⟨k, w⟩ := d
    have hp := h
    simp only [List.map_cons, List.pairwise_cons] at hp
    simp only [Memory.write]
    split
    · rename_i hlt
      simp only [List.map_cons, List.pairwise_cons, List.mem_cons]
      refine ⟨fun a ha => ?_, hp.1, hp.2⟩
      rcases ha with ha | ha
      · omega
      · exact lt_trans hlt (hp.1 a ha)
    · split
      · rename_i heq
        subst heq
        simp only [List.map_cons, List.pairwise_cons]
        exact ⟨hp.1, hp.2⟩
      · rename_i h1 h2
        simp only [List.map_cons, List.pairwise_cons]
        refine ⟨fun a ha => ?_, ih hp.2⟩
        obtain ⟨c, hc, rfl⟩ := List.mem_map.mp ha
        rcases Memory.mem_write hc with rfl | hc
        · show k < i; omega
        · exact hp.1 _ (List.mem_map_of_mem hc)

/-- Every write keeps the canonical form. -/
theorem Memory.wf_write (n : Nat) (f : Memory) (i : Nat) (v : Int) (hi : i < n) (h : Memory.wf n f = true) :
    Memory.wf n (Memory.write f i v) = true := by
  obtain ⟨hp, hb⟩ := (Memory.wf_iff n f).mp h
  refine (Memory.wf_iff n _).mpr ⟨Memory.rising_write f i v hp, fun c hc => ?_⟩
  rcases Memory.mem_write hc with rfl | hc
  · exact hi
  · exact hb c hc

/-- The store after reset has the canonical form. -/
theorem Memory.wf_reset : Memory.wf State.reset.cfg.n State.reset.frame = true := by decide

end Sys2Proof.Machine
end

