-- ==== Sys2Proof/Laws/PerInstr.lean ====
section
/-! SUPPORT. The family `RowMatch`: the word of every operation matches the operation's row of the opcode table (R105),
one lemma per constructor. -/

namespace Sys2Proof.Laws

/-- A word whose operation number matches under the row's upper mask byte, and whose immediate does under the lower. -/
theorem opWord_and (op imm m n : Byte) : opWord op imm &&& (m ++ n) = ((op &&& m) ++ (imm &&& n) : Word) :=
  BitVec.and_append

/-- The word of a row with an 8-bit operand: the immediate is free. -/
theorem opWord_free (op imm : Byte) : opWord op imm &&& 0xFF00#16 = opWord op 0#8 := by
  have h := opWord_and op imm 0xFF#8 0#8
  have e : (0xFF#8 ++ 0#8 : Word) = 0xFF00#16 := by decide
  rw [e] at h
  have hm : op &&& 0xFF#8 = op := BitVec.and_allOnes
  rw [h, hm, BitVec.and_zero]
  rfl

namespace RowMatch

/-- The command word of a well-formed operation is a word of the operation's row. -/
def Statement (i : Instr) : Prop := i.wellFormed = true → encode i &&& (rowOf i).2 = (rowOf i).1

theorem sdat (b : Level) : Statement (.sdat b) := fun _ => by cases b <;> decide
theorem clkh : Statement .clkh := fun _ => by decide
theorem clkl : Statement .clkl := fun _ => by decide
theorem latl : Statement .latl := fun _ => by decide
theorem lath : Statement .lath := fun _ => by decide
theorem wait : Statement .wait := fun _ => by decide
theorem shiftbyte (v : Byte) : Statement (.shiftbyte v) := fun _ => opWord_free _ _
theorem transmit (len : Nat) : Statement (.transmit len) := fun _ => opWord_free _ _
theorem encode (d : Int) (p : Polarity) : Statement (.encode d p) := fun _ => by
  have h := opWord_and (0x20#8 + BitVec.ofNat 8 p.code) (BitVec.ofInt 8 d) 0xFE#8 0#8
  have e : (0xFE#8 ++ 0#8 : Word) = 0xFE00#16 := by decide
  rw [e] at h
  refine h.trans ?_
  cases p <;> simp [Polarity.code, rowOf]
theorem actmask (i : Nat) : Statement (.actmask i) := fun _ => opWord_free _ _
theorem slot : Statement .slot := fun _ => by decide
theorem run : Statement .run := fun _ => by decide
theorem stop : Statement .stop := fun _ => by decide

end RowMatch

end Sys2Proof.Laws
end

