-- ==== Sys2Proof/Laws/Step.lean ====
section
/-! SUPPORT. Everything a step can do when it answers a next state, said once: one constructor per case, guards
included. Proofs about steps split on these cases and do not unfold the step. -/

namespace Sys2Proof.Machine

/-- The phases that write a pin, with the line and the level they write (R213 to R215). -/
inductive PinPhase (s : State) : Line → Level → Prop
  | latl : s.ph = .latl → PinPhase s .latch false
  | sdat (b : Level) : s.ph = .sdat → s.txBit = some b → PinPhase s .data b
  | clkh : s.ph = .clkh → PinPhase s .clock true
  | clkl : s.ph = .clkl → PinPhase s .clock false
  | lath : s.ph = .lath → PinPhase s .latch true

/-- A pin write that succeeded. -/
def pinDone (p : Line) (l : Level) (s : State) : State := drive p l (s.attempt p l)

/-- A pin write that failed with the line left at `x`. -/
def pinLost (p : Line) (l x : Level) (s : State) : State := raise .pinFault (drive p x (s.attempt p l))

/-- What the block's turn can do (R210 to R216). -/
inductive BlockStep (s : State) : State → Prop
  | idle : s.ph = .idle → BlockStep s s
  | pollStop : s.ph = .poll → s.stopReq = true → BlockStep s (complete (s.emit (.poll true)))
  | pollGo : s.ph = .poll → s.stopReq = false → BlockStep s { s.emit (.poll false) with ph := .fetch }
  | fetchBad (v : Int) : s.ph = .fetch → s.pos < s.cfg.n → Memory.read s.frame s.pos = some v →
      segPattern v s.cfg.polarity = none → BlockStep s (raise .invalidDigit (s.emit (.rd s.pos v)))
  | fetchGo (v : Int) (q : Byte) : s.ph = .fetch → s.pos < s.cfg.n → Memory.read s.frame s.pos = some v →
      segPattern v s.cfg.polarity = some q →
      BlockStep s { s.emit (.rd s.pos v) with
        txbuf := slotSeq s.cfg q (maskOf s.cfg s.pos), byteidx := 0, bitidx := 0, ph := .latl }
  | pinFail (p : Line) (l x : Level) : PinPhase s p l → s.fault ≠ some .pinFault → BlockStep s (pinLost p l x s)
  | latl : s.ph = .latl → s.fault ≠ some .pinFault → BlockStep s (afterLatl (pinDone .latch false s))
  | sdat (b : Level) : s.ph = .sdat → s.fault ≠ some .pinFault → s.txBit = some b →
      BlockStep s { pinDone .data b s with ph := .clkh }
  | clkh : s.ph = .clkh → s.fault ≠ some .pinFault → BlockStep s { pinDone .clock true s with ph := .clkl }
  | clkl : s.ph = .clkl → s.fault ≠ some .pinFault → BlockStep s (afterClkl (pinDone .clock false s))
  | lathHold : s.ph = .lath → s.fault ≠ some .pinFault → s.mode = .scanning →
      BlockStep s { pinDone .latch true s with
        trace := (pinDone .latch true s).trace ++ [.sleep s.slotdur], t0 := s.now, ph := .wait }
  | lathDone : s.ph = .lath → s.fault ≠ some .pinFault → s.mode = .stopped →
      BlockStep s (complete (pinDone .latch true s))
  | hold : s.ph = .wait → s.holdOver = false → BlockStep s s
  | advance : s.ph = .wait → s.holdOver = true →
      BlockStep s { s with pos := (s.pos + 1) % s.cfg.n, ph := .poll }

/-- Everything a turn of the block can do (one inversion for every proof about the sequencer). -/
theorem seqStep_cases {s t : State} (h : seqStep s = .next t) : BlockStep s t := by
  have pin : ∀ {p : Line} {l : Level} {f : State → Outcome} {t : State}, PinPhase s p l →
      proceed (pinOp p l s) f = .next t →
      (∀ u, u = pinDone p l s → s.fault ≠ some .pinFault → f u = .next t → BlockStep s t) → BlockStep s t := by
    intro p l f t hp ho hk
    obtain ⟨u, hu, hcase⟩ := proceed_next ho
    obtain ⟨hf, hd | ⟨x, hx⟩⟩ := pinOp_next hu
    · rcases hcase with ⟨hpf, -⟩ | ⟨-, hfu⟩
      · subst hd; simp at hpf; exact absurd hpf hf
      · exact hk u hd hf hfu
    · rcases hcase with ⟨-, rfl⟩ | ⟨hn, -⟩
      · subst hx; exact .pinFail p l x hp hf
      · subst hx; simp at hn
  unfold seqStep at h
  cases hph : s.ph <;> simp only [hph] at h
  · injection h with h; subst h; exact .idle hph
  · unfold exec execSlot at h
    injection h with h
    cases hs : s.stopReq with
    | true => rw [hs, if_pos rfl] at h; subst h; exact .pollStop hph hs
    | false => rw [hs, if_neg Bool.false_ne_true] at h; subst h; exact .pollGo hph hs
  · unfold fetchStep at h
    split at h
    · rename_i hpos
      cases hr : Memory.read s.frame s.pos with
      | none => simp [hr] at h
      | some v =>
        cases hq : segPattern v s.cfg.polarity with
        | none => simp [hr, hq] at h; subst h; exact .fetchBad v hph hpos hr hq
        | some q => simp [hr, hq] at h; subst h; exact .fetchGo v q hph hpos hr hq
    · cases h
  · refine pin (.latl hph) h fun u hu hf hk => ?_
    injection hk with hk; subst hk; subst hu; exact .latl hph hf
  · cases hb : s.txBit with
    | none => simp [hb] at h
    | some b =>
      simp only [hb] at h
      refine pin (.sdat b hph hb) h fun u hu hf hk => ?_
      injection hk with hk; subst hk; subst hu; exact .sdat b hph hf hb
  · refine pin (.clkh hph) h fun u hu hf hk => ?_
    injection hk with hk; subst hk; subst hu; exact .clkh hph hf
  · refine pin (.clkl hph) h fun u hu hf hk => ?_
    injection hk with hk; subst hk; subst hu; exact .clkl hph hf
  · refine pin (.lath hph) h fun u hu hf hk => ?_
    have hm : u.mode = s.mode := by subst hu; simp [pinDone]
    have h1 : u.slotdur = s.slotdur := by subst hu; simp [pinDone]
    have h2 : u.now = s.now := by subst hu; simp [pinDone]
    unfold afterLath at hk
    split at hk
    · rename_i hmode
      have e : t = { u with trace := u.trace ++ [.sleep s.slotdur], t0 := s.now, ph := .wait } := by
        injection hk with hk; rw [← hk, h1, h2]
      subst e; subst hu; exact .lathHold hph hf (by rw [← hm, hmode])
    · rename_i hmode
      injection hk with hk; subst hk; subst hu; exact .lathDone hph hf (by rw [← hm, hmode])
  · injection h with h
    unfold holdStep at h
    split at h
    · rename_i ho; subst h; exact .advance hph ho
    · rename_i ho; subst h; exact .hold hph (by simpa using ho)

/-- What a turn of the caller or of the time source can do (R82, R103, R208, R210, R221). -/
inductive CallerStep (s : State) : Act → State → Prop
  | shiftbyte (w : Word) (v : Byte) : decode w = .ok (.shiftbyte v) → s.ready →
      CallerStep s (.issue w) { s with
        txbuf := [v], byteidx := 0, bitidx := 0, ph := .sdat, oper := some .shiftByte, status := none }
  | transmit (w : Word) (len : Nat) : decode w = .ok (.transmit len) → s.ready →
      CallerStep s (.issue w) { s with
        txbuf := txseqBytes s.txseq s.draws len, draws := s.draws + 1, byteidx := 0, bitidx := 0, ph := .latl
        oper := some .transmit, status := none }
  | encode (w : Word) (d : Int) (p : Polarity) (q : Byte) : decode w = .ok (.encode d p) →
      s.mode = .stopped → s.ph = .idle → segPattern d p = some q →
      CallerStep s (.issue w) { s with fault := clearedFault s.fault, res := [q], status := some .ok }
  | encodeBad (w : Word) (d : Int) (p : Polarity) : decode w = .ok (.encode d p) →
      s.mode = .stopped → s.ph = .idle → segPattern d p = none →
      CallerStep s (.issue w) (raise .invalidDigit { s with fault := clearedFault s.fault })
  | actmask (w : Word) (i : Nat) : decode w = .ok (.actmask i) → s.mode = .stopped → s.ph = .idle → i < s.cfg.n →
      CallerStep s (.issue w) { s with res := maskOf s.cfg i, status := some .ok }
  | run (w : Word) : decode w = .ok .run → s.ready → 0 < s.refreshHz.num → configWf s.cfg = true →
      CallerStep s (.issue w) { s with
        fault := clearedFault s.fault, mode := .scanning, slotdur := slotDuration s.refreshHz s.cfg.n, pos := 0
        ph := .poll, oper := some .run, status := none }
  | stop (w : Word) : decode w = .ok .stop → CallerStep s (.issue w) { s with stopReq := true }
  | writeFrame (i : Nat) (v : Int) : i < s.cfg.n →
      CallerStep s (.writeFrame i v) { s with frame := Memory.write s.frame i v }
  | writeStop (b : Bool) : CallerStep s (.writeStop b) { s with stopReq := b }
  | writeTxseq (bs : List Byte) : CallerStep s (.writeTxseq bs) { s with txseq := bs }
  | writeRefreshHz (hz : Rat) : CallerStep s (.writeRefreshHz hz) { s with refreshHz := hz }
  | tick (d : Nat) : CallerStep s (.tick d) { s with now := s.now + d }

/-- Everything one turn of one agent can do. -/
theorem turn_cases {a : Act} {s t : State} (h : turn a s = .next t) :
    (a = .block ∧ BlockStep s t) ∨ CallerStep s a t := by
  cases a with
  | block => exact .inl ⟨rfl, seqStep_cases h⟩
  | issue w =>
    right
    simp only [turn, issueStep] at h
    cases hd : decode w with
    | error r => simp [hd] at h
    | ok i =>
      simp only [hd] at h
      cases i <;> simp only [Instr.internal, if_true, exec] at h <;> try cases h
      · obtain ⟨hm, hp, ho⟩ := whenIdle_next h
        obtain ⟨hf, ho⟩ := unlessPinFault_next ho
        injection ho with ho; subst ho; exact .shiftbyte w _ hd ⟨hm, hp, hf⟩
      · obtain ⟨hm, hp, ho⟩ := whenIdle_next h
        obtain ⟨hf, ho⟩ := unlessPinFault_next ho
        injection ho with ho; subst ho; exact .transmit w _ hd ⟨hm, hp, hf⟩
      · rename_i d p
        obtain ⟨hm, hp, ho⟩ := whenIdle_next h
        cases hq : segPattern d p with
        | none => simp [hq] at ho; subst ho; exact .encodeBad w d p hd hm hp hq
        | some q => simp [hq] at ho; subst ho; exact .encode w d p q hd hm hp hq
      · obtain ⟨hm, hp, ho⟩ := whenIdle_next h
        split at ho
        · rename_i hi; injection ho with ho; subst ho; exact .actmask w _ hd hm hp hi
        · cases ho
      · obtain ⟨hm, hp, ho⟩ := whenIdle_next h
        obtain ⟨hf, ho⟩ := unlessPinFault_next ho
        split at ho
        · cases ho
        · split at ho
          · rename_i h1 h2; injection ho with ho; subst ho; exact .run w hd ⟨hm, hp, hf⟩ (by omega) h2
          · cases ho
      · exact .stop w hd
  | writeFrame i v =>
    right
    simp only [turn] at h
    split at h
    · rename_i hi; injection h with h; subst h; exact .writeFrame i v hi
    · cases h
  | writeStop b => injection h with h; subst h; exact .inr (.writeStop b)
  | writeTxseq bs => injection h with h; subst h; exact .inr (.writeTxseq bs)
  | writeRefreshHz hz => injection h with h; subst h; exact .inr (.writeRefreshHz hz)
  | tick d => injection h with h; subst h; exact .inr (.tick d)

/-- Everything one step of the machine can do: whose turn it was, and what it did. -/
theorem step_cases {s t : State} (h : step s = .next t) :
    configWf s.cfg = true ∧
      ((s.sched = [] ∧ BlockStep s t) ∨
       (∃ rest, s.sched = .block :: rest ∧ BlockStep { s with sched := rest } t) ∨
       (∃ a rest, s.sched = a :: rest ∧ CallerStep { s with sched := rest } a t)) := by
  unfold step machineStep at h
  split at h
  · rename_i hc
    refine ⟨hc, ?_⟩
    split at h
    · rename_i hs; exact .inl ⟨hs, seqStep_cases h⟩
    · rename_i a rest hs
      rcases turn_cases h with ⟨rfl, hb⟩ | hcall
      · exact .inr (.inl ⟨rest, hs, hb⟩)
      · exact .inr (.inr ⟨a, rest, hs, hcall⟩)
  · cases h

/-! ### The record of failed clock writes (R52 c) -/

/-- A failed write of CLOCK stays on record, since `TRACE` only grows (R48). -/
theorem clockWriteFailed_of_append {s t : State} {es : List Event} (ht : t.trace = s.trace ++ es)
    (h : s.clockWriteFailed) : t.clockWriteFailed := by
  obtain ⟨l, hl⟩ := h
  exact ⟨l, ht ▸ hl.trans (List.prefix_append _ _).isInfix⟩

/-- Without a pin fault no write of CLOCK has failed. -/
theorem State.Inv.noClockWriteFailed {s : State} (hi : s.Inv) (hf : s.fault ≠ some .pinFault) :
    ¬ s.clockWriteFailed :=
  fun ⟨_, hl⟩ => hf (hi.pinFaultSticky (hl.subset (by simp)))

/-- R52 (c) as the proofs about a running operation use it. -/
theorem State.Inv.clock_low {s : State} (hi : s.Inv) (hf : s.fault ≠ some .pinFault) (hp : s.ph ≠ .clkl) :
    s.clock = false :=
  hi.clockLow (hi.noClockWriteFailed hf) hp

end Sys2Proof.Machine
end

