-- ==== Sys2Proof/Tests/Slice0.lean ====
section
/-! SUPPORT. The model's own tests (`test_…`) and, for every statement with hypotheses, a state and operands that meet
them all (`witness_…`). Expected values are from the spec: the vectors V<n> of 95_test_vectors.md and the rules named. -/

namespace Sys2Proof.Tests

open Sys2Proof Sys2Proof.Machine

/-! ### Small states -/

/-- The next state of an outcome. -/
def nextOf : Outcome → Option State
  | .next t => some t
  | .fault _ => none
  | .refused _ => none

theorem next_of {o : Outcome} (h : (nextOf o).isSome = true) : ∃ t, o = .next t := by
  cases o with
  | next t => exact ⟨t, rfl⟩
  | fault r => cases h
  | refused r => cases h

theorem next_of_any {o : Outcome} {p : State → Bool} (h : (nextOf o).any p = true) : ∃ t, o = .next t ∧ p t = true := by
  cases o with
  | next t => exact ⟨t, rfl, h⟩
  | fault r => cases h
  | refused r => cases h

/-- The eight stages of a register that holds `v`, stage 0 first (R45). -/
def reg (v : Byte) : List Level := (List.range 8).map v.getLsbD

/-- Stopped and idle: a frame written, two bytes in `TXSEQ`, `SH = [0xAA / 0xBB]`, `OUT = [0x4F / 0x04]`. -/
def base : State :=
  { State.reset with
    frame := [(0, 1), (1, 2), (2, 3), (3, 4)]
    txseq := [0x06#8, 0x01#8]
    sh := reg 0xBB#8 ++ reg 0xAA#8
    out := reg 0x04#8 ++ reg 0x4F#8 }

/-- Inside a SHIFTBYTE of 0xA5. -/
def shifting (ph : Phase) (bit : Nat) : State :=
  { base with ph := ph, oper := some .shiftByte, status := none, txbuf := [0xA5#8], bitidx := bit }

/-- Inside a RUN at 200 slots a second, at position 0. -/
def scanning (ph : Phase) : State :=
  { base with ph := ph, mode := .scanning, oper := some .run, status := none, slotdur := mkRat 1 200 }

/-- The scan of V80 at its `L1`: 0x06 and 0x01 are shifted in, not yet committed. -/
def atLath : State :=
  { scanning .lath with
    latch := false, data := true, txbuf := [0x06#8, 0x01#8], byteidx := 2, sh := reg 0x01#8 ++ reg 0x06#8 }

/-- The same slot under common anode with the select byte first (V84): 0x01 and 0xF9 are shifted in. -/
def atLathAnode : State :=
  { atLath with
    cfg := { Config.standard 4 true with polarity := .commonAnode, segFirst := false }
    txbuf := [0x01#8, 0xF9#8], sh := reg 0xF9#8 ++ reg 0x01#8 }

/-- The scan of V80 in its hold. -/
def holding (now : Nat) : State :=
  { atLath with ph := .wait, latch := true, out := reg 0x01#8 ++ reg 0x06#8, t0 := 1000, now := now }

/-- Stopped by a pin fault. -/
def broken : State :=
  { base with
    fault := some .pinFault, status := some (.err .pinFault), trace := [.w .data true, .fault .pinFault] }

/-- A configuration that R178 rejects (V69). -/
def illFormed : Config := { Config.standard 2 true with masktab := [[0x03#8], [0x02#8]] }

/-- `n` answers ok, then a failure. -/
def oks (n : Nat) : List PinAnswer := List.replicate n .ok ++ [.fail true]

/-- `base` with `n` answers ok to come, then a failure. -/
def okBase (n : Nat) : State := { base with pins := oks n }

/-- A state whose next pin write fails. -/
def failing (s : State) : State := { s with pins := [.fail true] }

/-- The state after an operation and the block's next `n` turns. -/
def after (o : Outcome) (n : Nat) : Option State := (nextOf o).bind fun t => nextOf (seqSteps n t)

theorem after_next {o : Outcome} {n : Nat} {p : State → Bool} (h : (after o n).any p = true) :
    ∃ t u, o = .next t ∧ seqSteps n t = .next u ∧ p u = true := by
  cases o with
  | next t =>
    obtain ⟨u, hu, hp⟩ := next_of_any (o := seqSteps n t) h
    exact ⟨t, u, rfl, hu, hp⟩
  | fault r => cases h
  | refused r => cases h

/-! ### WellFormed: an ill-formed term for each check (R104) -/

theorem test_wellFormed_transmit : Instr.wellFormed (.transmit 256) = false := by decide
theorem test_wellFormed_encode_high : Instr.wellFormed (.encode 256 .commonAnode) = false := by decide
theorem test_wellFormed_encode_negative : Instr.wellFormed (.encode (-1) .commonCathode) = false := by decide
theorem test_wellFormed_actmask : Instr.wellFormed (.actmask 256) = false := by decide

/-! ### Decode: a word of every constructor, from the encodings of R104 and R105 -/

theorem test_decode_sdat : decode 0b0000000100000001#16 = .ok (.sdat true) := by decide
theorem test_decode_clkh : decode 0b0000001000000000#16 = .ok .clkh := by decide
theorem test_decode_clkl : decode 0b0000001100000000#16 = .ok .clkl := by decide
theorem test_decode_latl : decode 0b0000010000000000#16 = .ok .latl := by decide
theorem test_decode_lath : decode 0b0000010100000000#16 = .ok .lath := by decide
theorem test_decode_wait : decode 0b0000011000000000#16 = .ok .wait := by decide
theorem test_decode_shiftbyte : decode 0b0001000010100101#16 = .ok (.shiftbyte 0xA5#8) := by decide
theorem test_decode_transmit : decode 0b0001000100000010#16 = .ok (.transmit 2) := by decide
theorem test_decode_encode : decode 0b0010000000000011#16 = .ok (.encode 3 .commonCathode) := by decide
theorem test_decode_encode_anode : decode 0b0010000100001010#16 = .ok (.encode 10 .commonAnode) := by decide
theorem test_decode_actmask : decode 0b0011000000001000#16 = .ok (.actmask 8) := by decide
theorem test_decode_slot : decode 0b0100000000000000#16 = .ok .slot := by decide
theorem test_decode_run : decode 0b0100001000000000#16 = .ok .run := by decide
theorem test_decode_stop : decode 0b0100001100000000#16 = .ok .stop := by decide

/-- V104 and R106: reserved words. -/
theorem test_decode_reserved :
    decode 0x0000#16 = .error (.reservedOp 0x00#8) ∧ decode 0x0700#16 = .error (.reservedOp 0x07#8) ∧
    decode 0x4100#16 = .error (.reservedOp 0x41#8) ∧ decode 0xFFFF#16 = .error (.reservedOp 0xFF#8) ∧
    decode 0x4201#16 = .error (.immediateNotZero 0x42#8 0x01#8) ∧ decode 0x0102#16 = .error (.sdatImmediate 0x02#8) := by
  decide

theorem test_decodeTableWord : decodeTableWord 16 0x2103 = some (.encode 3 .commonAnode) := by decide
theorem test_decodeTableWord_reserved : decodeTableWord 16 0x4100 = none := by decide

/-! ### One step of each operation -/

/-- V10. -/
theorem test_sdat : (nextOf (exec (.sdat true) base)).map (fun t => (t.data, t.trace, t.sh == base.sh)) =
    some (true, [.w .data true], true) := by decide

/-- V11: the data bit enters stage 0 and the old content moves up. -/
theorem test_clkh : (nextOf (exec .clkh { base with data := true, sh := reg 0x80#8 ++ reg 0x00#8 })).map
    (fun t => (t.clock, t.sh)) = some (true, reg 0x01#8 ++ reg 0x01#8) := by decide

/-- V12: no edge. -/
theorem test_clkh_no_edge : (nextOf (exec .clkh { base with clock := true })).map (fun t => (t.trace, t.sh)) =
    some ([.w .clock true], base.sh) := by decide

/-- V11. -/
theorem test_clkl : (nextOf (exec .clkl { base with clock := true })).map (fun t => (t.clock, t.sh)) =
    some (false, base.sh) := by decide

/-- V13: after `L0` the outputs are still the old ones. -/
theorem test_latl : (nextOf (exec .latl base)).map (fun t => (t.latch, t.out)) =
    some (false, reg 0x04#8 ++ reg 0x4F#8) := by decide

/-- V13: after `L1` they are the stages. -/
theorem test_lath : (nextOf (exec .lath { base with latch := false })).map (fun t => (t.latch, t.out)) =
    some (true, reg 0xBB#8 ++ reg 0xAA#8) := by decide

/-- V14: no edge. -/
theorem test_lath_no_edge : (nextOf (exec .lath base)).map (fun t => (t.latch, t.out)) =
    some (true, reg 0x04#8 ++ reg 0x4F#8) := by decide

/-- V16. -/
theorem test_wait : (nextOf (exec .wait { scanning .lath with now := 1000 })).map (fun t => (t.trace, t.t0, t.ph)) =
    some ([.sleep (mkRat 1 200)], 1000, .wait) := by decide

/-- R210: the issue step writes no line. -/
theorem test_shiftbyte : (nextOf (exec (.shiftbyte 0xA5#8) base)).map (fun t => (t.txbuf, t.ph, t.trace)) =
    some ([0xA5#8], .sdat, []) := by decide

/-- V30: refused after a pin fault. -/
theorem test_transmit_sticky : nextOf (exec (.transmit 2) broken) = none := by decide

/-- R210, R103: the issue step takes the bytes from `TXSEQ`. -/
theorem test_transmit : (nextOf (exec (.transmit 2) base)).map (fun t => (t.txbuf, t.ph, t.trace)) =
    some ([0x06#8, 0x01#8], .latl, []) := by decide

/-- V43 (anode). -/
theorem test_encode : (nextOf (exec (.encode 3 .commonAnode) base)).map (fun t => (t.res, t.status)) =
    some ([0xB0#8], some .ok) := by decide

/-- V50. -/
theorem test_encode_invalid : (nextOf (exec (.encode 10 .commonCathode) base)).map
    (fun t => (t.res, t.fault, t.trace)) = some ([], some .invalidDigit, [.fault .invalidDigit]) := by decide

/-- V73: a two-byte entry. -/
theorem test_actmask : (nextOf (exec (.actmask 9) { base with cfg := { Config.standard 12 true with
    m := 2, masktab := (List.range 12).map fun i => [BitVec.ofNat 8 (2 ^ i % 256), BitVec.ofNat 8 (2 ^ i / 256)] } })).map
    (fun t => t.res) = some [0x00#8, 0x02#8] := by decide

/-- V68. -/
theorem test_actmask_outside : nextOf (exec (.actmask 4) base) = none := by decide

/-- V91: a request at the poll ends the run. -/
theorem test_slot_stop : (nextOf (exec .slot { scanning .poll with stopReq := true })).map
    (fun t => (t.trace, t.mode, t.status)) = some ([.poll true], .stopped, some .ok) := by decide

/-- V88: the slot duration is 1/60. -/
theorem test_run : (nextOf (exec .run { base with refreshHz := 15 })).map (fun t => (t.slotdur, t.mode, t.ph)) =
    some (mkRat 1 60, .scanning, .poll) := by decide

/-- V90. -/
theorem test_run_zero : nextOf (exec .run { base with refreshHz := 0 }) = none := by decide

/-- V97. -/
theorem test_stop : (nextOf (exec .stop (scanning .sdat))).map (fun t => (t.stopReq, t.ph)) = some (true, .sdat) := by
  decide

/-- V80: the fetch of slot 0 builds `[0x06, 0x01]`. -/
theorem test_fetch : (nextOf (seqStep (scanning .fetch))).map (fun t => (t.txbuf, t.trace)) =
    some ([0x06#8, 0x01#8], [.rd 0 1]) := by decide

/-- V29: the write of `L0` fails and the line is left low. -/
theorem test_pin_fault : (nextOf (seqStep { scanning .latl with pins := [.fail false] })).map
    (fun t => (t.trace, t.latch, t.fault, t.mode)) =
    some ([.w .latch false, .fault .pinFault], false, some .pinFault, .stopped) := by decide

/-- V81, slot 0: the commit makes digit 0 and no other active and lights segment bits 1 and 2. -/
theorem test_display : (nextOf (seqStep atLath)).map (fun t =>
      ((List.range 4).map (active t), (List.range 8).map (segOn t))) =
    some ([true, false, false, false], [false, true, true, false, false, false, false, false]) := by decide

/-- R215: the WAIT of a word placed for the next step runs with its LATH. -/
theorem test_withFetchWord : (nextOf (step (State.reset.withFetchWord 16 0x0600))).map (fun t => (t.trace, t.ph)) =
    some ([.w .latch true, .sleep 1], .wait) := by decide

/-! ### The witness states meet the invariants -/

theorem base_inv : base.Inv := by constructor <;> decide
theorem broken_inv : broken.Inv := by constructor <;> decide
theorem poll_inv : (scanning .poll).Inv := by constructor <;> decide
theorem holding_inv : (holding 1005).Inv := by constructor <;> decide

theorem atLath_fullInv : atLath.FullInv where
  inv := by constructor <;> decide
  shift := by constructor <;> decide
  slot := fun _ _ _ => ⟨1, 0x06#8, by decide, by decide, by decide, by decide⟩

theorem holding_fullInv : (holding 1005).FullInv where
  inv := holding_inv
  shift := by constructor <;> decide
  slot := fun _ _ _ => ⟨1, 0x06#8, by decide, by decide, by decide, by decide⟩

theorem poll_fullInv : (scanning .poll).FullInv where
  inv := poll_inv
  shift := by constructor <;> decide
  slot := fun _ h _ => absurd rfl h

theorem holding_oneActive : oneActive (holding 1005) := ⟨0, by decide, by unfold onlyActive; decide⟩

theorem atLathAnode_fullInv : atLathAnode.FullInv where
  inv := by constructor <;> decide
  shift := by constructor <;> decide
  slot := fun _ _ _ => ⟨1, 0xF9#8, by decide, by decide, by decide, by decide⟩

/-- R52 (c): `broken` failed at DATA, so its CLOCK is still known to be low; a failed write of CLOCK is on record. -/
theorem test_clockWriteFailed :
    ¬ broken.clockWriteFailed ∧
    { broken with trace := [.w .clock true, .fault .pinFault, .fault .invalidDigit] }.clockWriteFailed := by decide

/-! ### Witnesses -/

theorem witness_DecodeAndEncodeAgree :
    Instr.wellFormed (.transmit 255) = true ∧ Instr.wellFormed (.encode 255 .commonAnode) = true ∧
    decode 0x11FF#16 = .ok (.transmit 255) := by decide

theorem witness_WordAcceptedIffARowMatches :
    (∃ r ∈ opcodeRows, 0x21FF#16 &&& r.2 = r.1) ∧ decode 0x21FF#16 = .ok (.encode 255 .commonAnode) :=
  ⟨⟨(0x2000#16, 0xFE00#16), by decide, by decide⟩, by decide⟩

theorem witness_StepRunsTheIssuedWord :
    configWf { base with sched := [.issue 0x4300#16] }.cfg = true ∧ decode 0x4300#16 = .ok .stop ∧
    Instr.internal .stop = false := by decide

theorem witness_StepRunsTheOperationOfThePhase :
    configWf base.cfg = true ∧ base.sched = [] ∧ base.ph = .idle ∧
    (configWf { base with sched := [.block] }.cfg = true ∧ { base with sched := [.block] }.sched = [.block]) ∧
    (scanning .poll).ph = .poll ∧ (scanning .latl).ph = .latl ∧
    ((shifting .sdat 7).ph = .sdat ∧ (shifting .sdat 7).txbuf[(shifting .sdat 7).byteidx]? = some 0xA5#8) ∧
    (shifting .clkh 0).ph = .clkh ∧ (shifting .clkl 7).ph = .clkl ∧
    ({ base with ph := .lath, oper := some .transmit }.ph = .lath ∧
      { base with ph := .lath, oper := some .transmit }.mode = .stopped) ∧
    (atLath.ph = .lath ∧ atLath.mode = .scanning) := by decide

theorem witness_StepRefusesByName :
    configWf { base with cfg := illFormed }.cfg = false ∧
    (configWf { base with sched := [.issue 0x0000#16] }.cfg = true ∧ decode 0x0000#16 = .error (.reservedOp 0#8)) ∧
    (configWf { base with sched := [.issue 0x4000#16] }.cfg = true ∧ decode 0x4000#16 = .ok .slot ∧
      Instr.internal .slot = true) ∧
    ({ scanning .fetch with frame := [] }.ph = .fetch ∧ 0 < { scanning .fetch with frame := [] }.cfg.n ∧
      Memory.read { scanning .fetch with frame := [] }.frame 0 = none) := by decide

theorem witness_SdatWritesTheDataLine : (okBase 1).fault ≠ some .pinFault ∧ (okBase 1).okFor 1 := by decide

theorem witness_ClkhRaisesTheClockAndShifts :
    (okBase 1).fault ≠ some .pinFault ∧ (okBase 1).okFor 1 ∧ (okBase 1).clock = false ∧ 0 < (okBase 1).sh.length ∧
    14 + 1 < (okBase 1).sh.length ∧
    ({ okBase 1 with clock := true }.fault ≠ some .pinFault ∧ { okBase 1 with clock := true }.okFor 1 ∧
      { okBase 1 with clock := true }.clock = true) := by decide

theorem witness_LoweringALineLeavesTheChain : (okBase 1).fault ≠ some .pinFault ∧ (okBase 1).okFor 1 := by decide

theorem witness_LathRaisesTheLatchAndCommits :
    ({ okBase 1 with latch := false }.fault ≠ some .pinFault ∧ { okBase 1 with latch := false }.okFor 1) ∧
    ((okBase 1).fault ≠ some .pinFault ∧ (okBase 1).okFor 1) := by decide

theorem witness_FailedPinWriteTakesPinFault :
    (failing base).fault ≠ some .pinFault ∧ (failing base).pins.head? = some (.fail true) := by decide

theorem witness_ShiftbyteShiftsEightBits :
    ((okBase 24).ready ∧ (okBase 24).okFor 24) ∧
    ({ okBase 24 with clock := true }.ready ∧ { okBase 24 with clock := true }.okFor 24) := by decide

theorem witness_ByteOnTheWire :
    (okBase 24).ready ∧ (okBase 24).okFor 24 ∧ ∃ t, exec (.shiftbyte 0xA5#8) (okBase 24) = .next t :=
  ⟨by decide, by decide, next_of (by decide)⟩

theorem witness_TransmitSendsTheBytesAndCommits :
    ((okBase 2).ready ∧ (okBase 2).okFor (24 * 0 + 2) ∧ txseqBytes (okBase 2).txseq (okBase 2).draws 0 = []) ∧
    ((okBase 50).ready ∧ (okBase 50).okFor (24 * 2 + 2) ∧
      txseqBytes (okBase 50).txseq (okBase 50).draws 2 = [0x06#8, 0x01#8]) := by decide

/-- V22: `SH = OUT = [0x06 / 0x01]`. -/
theorem witness_FirstByteEndsFarthest :
    (okBase 50).Inv ∧ (okBase 50).ready ∧ (okBase 50).okFor (24 * (okBase 50).cfg.k + 2) ∧
    ∃ t u, exec (.transmit (okBase 50).cfg.k) (okBase 50) = .next t ∧ seqSteps (24 * (okBase 50).cfg.k + 2) t = .next u ∧
      decide (u.out = reg 0x01#8 ++ reg 0x06#8) = true :=
  ⟨by constructor <;> decide, by decide, by decide, after_next (by decide)⟩

/-- V24 (too short), then V25 (too long). -/
theorem witness_WrongLengthTransmitMovesTheOldBits :
    ((okBase 26).Inv ∧ (okBase 26).ready ∧ (okBase 26).okFor 26 ∧
      ∃ t u, exec (.transmit 1) { okBase 26 with txseq := [0x11#8] } = .next t ∧ seqSteps 26 t = .next u ∧
        decide (u.out = reg 0x11#8 ++ reg 0xBB#8) = true) ∧
    ((okBase 74).Inv ∧ (okBase 74).ready ∧ (okBase 74).okFor 74 ∧
      ∃ t u, exec (.transmit 3) { okBase 74 with txseq := [0x11#8, 0x22#8, 0x33#8] } = .next t ∧
        seqSteps 74 t = .next u ∧ decide (u.out = reg 0x33#8 ++ reg 0x22#8) = true) :=
  ⟨⟨by constructor <;> decide, by decide, by decide, after_next (by decide)⟩,
   ⟨by constructor <;> decide, by decide, by decide, after_next (by decide)⟩⟩

/-- V23, the hypotheses about the two transmits. -/
theorem witness_SecondTransmitChangesNoOutput :
    base.Inv ∧ base.ready ∧ base.cfg.k ≤ base.txseq.length ∧ base.okFor (2 * (24 * base.cfg.k + 2)) ∧
    ∃ t u, exec (.transmit 2) base = .next t ∧ seqSteps 50 t = .next u ∧
      (after (exec (.transmit 2) u) 50).isSome = true :=
  ⟨base_inv, by decide, by decide, by decide, after_next (by decide)⟩

theorem witness_TransactionHasOneLatchPulse :
    ((okBase 2).ready ∧ (okBase 2).okFor (24 * 0 + 2)) ∧ ((okBase 50).ready ∧ (okBase 50).okFor (24 * 2 + 2)) := by decide

/-- The pin write that fails here is the one of V15. -/
theorem witness_ShiftbyteStepsMatchItsExpansion :
    ∃ t, exec (.shiftbyte 0xA5#8) { base with pins := oks 4 } = .next t := next_of (by decide)

/-- The pin write that fails here is the one of V28. -/
theorem witness_TransmitStepsMatchItsExpansion : ∃ t, exec (.transmit 2) (okBase 49) = .next t := next_of (by decide)

theorem witness_CathodeTableEntries : segPattern 9 .commonCathode = some 0x6F#8 := by decide

/-- V49. -/
theorem witness_AnodeIsTheComplementOverEightBits :
    segPattern 9 .commonCathode = some 0x6F#8 ∧ segPattern 9 .commonAnode = some 0x90#8 ∧
    segPattern 10 .commonCathode = none := by decide

theorem witness_EncodeReturnsTheTableByte :
    base.mode = .stopped ∧ base.ph = .idle ∧ ((0 : Int) ≤ 0 ∧ (0 : Int) ≤ 9) ∧ ((0 : Int) ≤ 9 ∧ (9 : Int) ≤ 9) ∧
    broken.mode = .stopped ∧ broken.ph = .idle := by decide

theorem witness_EncodeOfANonDigitTakesInvalidDigit :
    base.mode = .stopped ∧ base.ph = .idle ∧ base.fault ≠ some .pinFault ∧ ((-1 : Int) < 0 ∨ (9 : Int) < -1) ∧
    ((10 : Int) < 0 ∨ (9 : Int) < 10) := by decide

theorem witness_InvalidDigitDoesNotClearPinFault :
    broken.mode = .stopped ∧ broken.ph = .idle ∧ broken.fault = some .pinFault ∧ ((10 : Int) < 0 ∨ (9 : Int) < 10) := by
  decide

theorem witness_ActmaskReturnsTheTableEntry :
    base.mode = .stopped ∧ base.ph = .idle ∧ (3 < base.cfg.n ∧ configWf base.cfg = true) ∧ base.cfg.n ≤ 4 := by decide

theorem witness_WellFormedMasksSelectOnePosition :
    configWf base.cfg = true ∧ 3 < base.cfg.n ∧ selLineOf base.cfg 3 = selLineOf base.cfg 3 ∧
    maskOf base.cfg 3 = maskOf base.cfg 3 := by decide

theorem witness_DefaultConfigurationsAreWellFormed : 1 ≤ 1 ∧ 1 ≤ 8 ∧ 8 ≤ 8 := by decide

theorem witness_SlotPollsTheStopRequest :
    { scanning .poll with stopReq := true }.stopReq = true ∧ (scanning .poll).stopReq = false := by decide

theorem witness_FetchReadsOneEntryAndBuildsTheTransaction :
    ((scanning .fetch).ph = .fetch ∧ (scanning .fetch).pos < (scanning .fetch).cfg.n) ∧
    (scanning .fetch).fault ≠ some .pinFault ∧
    (Memory.read { scanning .fetch with frame := [(0, -1)] }.frame 0 = some (-1) ∧ ((-1 : Int) < 0 ∨ (9 : Int) < -1)) ∧
    (Memory.read { scanning .fetch with frame := [(0, 10)] }.frame 0 = some 10 ∧ ((10 : Int) < 0 ∨ (9 : Int) < 10)) ∧
    (Memory.read { scanning .fetch with frame := [(0, 0)] }.frame 0 = some 0 ∧ (0 : Int) ≤ 9) ∧
    (Memory.read { scanning .fetch with frame := [(0, 9)] }.frame 0 = some 9 ∧ (0 : Int) ≤ 9) := by decide

theorem witness_PhaseLatlStartsTheTransaction :
    ((scanning .latl).ph = .latl ∧ (scanning .latl).fault ≠ some .pinFault ∧ (scanning .latl).okFor 1) ∧
    ((failing (scanning .latl)).ph = .latl ∧ (failing (scanning .latl)).fault ≠ some .pinFault ∧
      (failing (scanning .latl)).pins.head? = some (.fail true)) := by decide

theorem witness_PhasesOfOneBit_sdat :
    (shifting .sdat 7).fault ≠ some .pinFault ∧ (shifting .sdat 7).ph = .sdat ∧
    (shifting .sdat 7).txbuf[(shifting .sdat 7).byteidx]? = some 0xA5#8 ∧ (shifting .sdat 7).okFor 1 ∧
    ((failing (shifting .sdat 0)).fault ≠ some .pinFault ∧ (failing (shifting .sdat 0)).ph = .sdat ∧
      (failing (shifting .sdat 0)).txbuf[0]? = some 0xA5#8 ∧
      (failing (shifting .sdat 0)).pins.head? = some (.fail true)) := by decide

theorem witness_PhasesOfOneBit_latch :
    ((failing (scanning .latl)).fault ≠ some .pinFault ∧ (failing (scanning .latl)).ph = .latl ∧
      (failing (scanning .latl)).pins.head? = some (.fail true)) ∧
    ((failing atLath).fault ≠ some .pinFault ∧ (failing atLath).ph = .lath ∧
      (failing atLath).pins.head? = some (.fail true)) := by decide

theorem witness_PhasesOfOneBit_clkh :
    ((shifting .clkh 0).fault ≠ some .pinFault ∧ (shifting .clkh 0).ph = .clkh ∧ (shifting .clkh 0).okFor 1 ∧
      (shifting .clkh 0).clock = false) ∧
    ((failing (shifting .clkh 0)).fault ≠ some .pinFault ∧ (failing (shifting .clkh 0)).ph = .clkh ∧
      (failing (shifting .clkh 0)).pins.head? = some (.fail true)) := by decide

theorem witness_PhasesOfOneBit_clkl :
    ((shifting .clkl 6).fault ≠ some .pinFault ∧ (shifting .clkl 6).ph = .clkl ∧ (shifting .clkl 6).okFor 1 ∧
      (shifting .clkl 6).bitidx < 7) ∧
    (7 ≤ (shifting .clkl 7).bitidx ∧ (shifting .clkl 7).txbuf.length ≤ (shifting .clkl 7).byteidx + 1 ∧
      (shifting .clkl 7).oper = some .shiftByte ∧ (shifting .clkl 7).okFor 1) ∧
    ({ scanning .clkl with txbuf := [0#8, 0#8], bitidx := 7 }.okFor 1 ∧
      { scanning .clkl with txbuf := [0#8, 0#8], bitidx := 7 }.byteidx + 1 < 2) ∧
    ({ scanning .clkl with txbuf := [0#8, 0#8], bitidx := 7, byteidx := 1 }.txbuf.length ≤ 1 + 1 ∧
      { scanning .clkl with txbuf := [0#8, 0#8], bitidx := 7, byteidx := 1 }.oper = some .run) ∧
    ((failing (shifting .clkl 7)).fault ≠ some .pinFault ∧
      (failing (shifting .clkl 7)).pins.head? = some (.fail true)) := by decide

theorem witness_PhaseLathCommitsAndHolds :
    (atLath.ph = .lath ∧ atLath.fault ≠ some .pinFault ∧ atLath.okFor 1 ∧ atLath.mode = .scanning) ∧
    ({ base with ph := .lath, oper := some .transmit }.ph = .lath ∧
      { base with ph := .lath, oper := some .transmit }.fault ≠ some .pinFault ∧
      { base with ph := .lath, oper := some .transmit }.okFor 1 ∧
      { base with ph := .lath, oper := some .transmit }.mode = .stopped) ∧
    ((failing atLath).ph = .lath ∧ (failing atLath).fault ≠ some .pinFault ∧
      (failing atLath).pins.head? = some (.fail true)) := by decide

/-- V16: at 1004 the hold goes on, at 1005 it ends. -/
theorem witness_HoldLastsAtLeastTheSlotDuration :
    ((holding 1004).ph = .wait ∧
      (((holding 1004).now : Nat) : Rat) - (((holding 1004).t0 : Nat) : Rat) < 1000 * (holding 1004).slotdur) ∧
    ((holding 1005).ph = .wait ∧
      1000 * (holding 1005).slotdur ≤ (((holding 1005).now : Nat) : Rat) - (((holding 1005).t0 : Nat) : Rat)) := by
  have h (n : Nat) : (holding n).slotdur = 1 / 200 := by show mkRat 1 200 = 1 / 200; norm_num
  simp only [h]
  refine ⟨⟨rfl, ?_⟩, rfl, ?_⟩ <;> norm_num [holding]

theorem witness_EveryHoldEnds : (holding 1005).Inv ∧ (holding 1005).ph = .wait := ⟨holding_inv, by decide⟩

theorem witness_SlotShowsItsDigit :
    { scanning .poll with pins := oks 50 }.Inv ∧ { scanning .poll with pins := oks 50 }.ph = .poll ∧
    { scanning .poll with pins := oks 50 }.stopReq = false ∧
    Memory.read { scanning .poll with pins := oks 50 }.frame 0 = some 1 ∧
    segPattern 1 .commonCathode = some 0x06#8 ∧ maskOf { scanning .poll with pins := oks 50 }.cfg 0 = [0x01#8] ∧
    { scanning .poll with pins := oks 50 }.okFor (24 * 2 + 2) :=
  ⟨by constructor <;> decide, by decide⟩

theorem witness_RunStartsTheScan : base.ready ∧ 0 < base.refreshHz ∧ configWf base.cfg = true := by decide

theorem witness_OperationsNotAdmittedAreRefused :
    (scanning .wait).mode = .scanning ∧ ((shifting .sdat 0).mode = .stopped ∧ (shifting .sdat 0).ph ≠ .idle) ∧
    ({ base with refreshHz := 0 }.ready ∧ { base with refreshHz := 0 }.refreshHz ≤ 0) ∧
    ({ base with cfg := illFormed }.ready ∧ 0 < { base with cfg := illFormed }.refreshHz ∧
      configWf { base with cfg := illFormed }.cfg = false) := by decide

theorem witness_PinFaultRefusesEveryWriter :
    broken.fault = some .pinFault ∧ broken.mode = .stopped ∧ broken.ph = .idle := by decide

/-- V101: ENCODE is admitted after a pin fault. -/
theorem witness_NothingIsWrittenAfterPinFault :
    { broken with sched := [.issue 0x2001#16, .tick 5] }.Inv ∧
    { broken with sched := [.issue 0x2001#16, .tick 5] }.fault = some .pinFault ∧
    ∃ t, Sys2Proof.core.run 2 { broken with sched := [.issue 0x2001#16, .tick 5] } = .next t :=
  ⟨by constructor <;> decide, by decide, next_of (o := Sys2Proof.core.run 2 _) (by decide)⟩

theorem witness_StepKeepsTheStateInvariants : atLath.Inv ∧ ∃ t, step atLath = .next t :=
  ⟨atLath_fullInv.inv, next_of (by decide)⟩

theorem witness_StepKeepsTheTransactionInvariants : atLath.FullInv ∧ ∃ t, step atLath = .next t :=
  ⟨atLath_fullInv, next_of (by decide)⟩

theorem witness_InvariantStatesDoNotFault :
    { base with sched := [.writeFrame 3 7] }.Inv ∧ inRange { base with sched := [.writeFrame 3 7] } (.writeFrame 3 7) :=
  ⟨by constructor <;> decide, show 3 < 4 by decide⟩

theorem witness_ModeChangesOnlyAsTheTableSays_start :
    { base with sched := [.issue 0x4200#16] }.Inv ∧
    ∃ t, step { base with sched := [.issue 0x4200#16] } = .next t ∧ decide (t.mode = .scanning) = true :=
  ⟨by constructor <;> decide, next_of_any (by decide)⟩

theorem witness_ModeChangesOnlyAsTheTableSays_stop :
    ({ scanning .poll with stopReq := true }.Inv ∧
      ∃ t, step { scanning .poll with stopReq := true } = .next t ∧ decide (t.mode = .stopped) = true) ∧
    ({ scanning .fetch with frame := [(0, 10)] }.Inv ∧
      ∃ t, step { scanning .fetch with frame := [(0, 10)] } = .next t ∧ decide (t.mode = .stopped) = true) ∧
    ((failing atLath).Inv ∧ ∃ t, step (failing atLath) = .next t ∧ decide (t.mode = .stopped) = true) :=
  ⟨⟨by constructor <;> decide, next_of_any (by decide)⟩, ⟨by constructor <;> decide, next_of_any (by decide)⟩,
   ⟨by constructor <;> decide, next_of_any (by decide)⟩⟩

theorem witness_PositionMovesOnlyAfterTheHold :
    (∃ t, step (holding 1005) = .next t ∧ decide (t.pos = 1) = true) ∧
    (∃ t, step { base with sched := [.issue 0x4200#16], pos := 2 } = .next t ∧ decide (t.pos = 0) = true) ∧
    (∃ t, exec .run base = .next t) :=
  ⟨next_of_any (by decide), next_of_any (by decide), next_of (by decide)⟩

theorem witness_BlockReadsNothingBack :
    Instr.internal .run = false ∧ Instr.internal (.transmit 2) = false ∧ Instr.internal (.shiftbyte 0xA5#8) = false ∧
    Instr.internal (.encode 10 .commonAnode) = false ∧ Instr.internal (.actmask 3) = false ∧
    Instr.internal .stop = false := by decide

theorem witness_BlockReadsOnlyTheCurrentEntry :
    (scanning .fetch).ph = .fetch ∧ Memory.read [(0, 1), (3, 9)] 0 = Memory.read (scanning .fetch).frame 0 := by decide

theorem witness_BlockPollsTheStopRequestOnlyInPoll :
    ((scanning .sdat).ph ≠ .poll ∨ true = (scanning .sdat).stopReq) ∧
    ((scanning .poll).ph ≠ .poll ∨ false = (scanning .poll).stopReq) := by decide

theorem witness_BlockLeavesTheOtherAgentsState : (∃ t, seqStep atLath = .next t) ∧ ∃ t, step atLath = .next t :=
  ⟨next_of (by decide), next_of (by decide)⟩

theorem witness_FrameWriteChangesOneEntry :
    3 < base.cfg.n ∧ (0 : Nat) ≠ 3 ∧ Memory.wf base.cfg.n base.frame = true ∧ base.cfg.n ≤ 4 := by decide

theorem witness_OutputsChangeOnlyAtTheCommit :
    atLath.Inv ∧ atLath.oper ≠ some .shiftByte ∧ ∃ t, seqStep atLath = .next t :=
  ⟨atLath_fullInv.inv, by decide, next_of (by decide)⟩

theorem witness_EndedRunLeavesTheBusInOrder :
    { scanning .poll with stopReq := true }.Inv ∧ { scanning .poll with stopReq := true }.mode = .scanning ∧
    ∃ t, step { scanning .poll with stopReq := true } = .next t ∧
      decide (t.mode = .stopped ∧ t.fault ≠ some .pinFault) = true :=
  ⟨by constructor <;> decide, by decide, next_of_any (by decide)⟩

theorem witness_CommitShowsThePositionOfTheSlot_anode :
    atLathAnode.FullInv ∧ atLathAnode.mode = .scanning ∧ atLathAnode.ph = .lath ∧
    atLathAnode.cfg.polarity = .commonAnode ∧ 7 < 8 ∧ 3 < atLathAnode.cfg.n ∧
    ∃ t, seqStep atLathAnode = .next t ∧ decide (t.fault ≠ some .pinFault) = true :=
  ⟨atLathAnode_fullInv, by decide, by decide, by decide, by decide, by decide, next_of_any (by decide)⟩

theorem witness_CommitShowsThePositionOfTheSlot :
    atLath.cfg.polarity = .commonCathode ∧ atLath.FullInv ∧ atLath.mode = .scanning ∧ atLath.ph = .lath ∧
    ∃ t, seqStep atLath = .next t ∧ decide (t.fault ≠ some .pinFault) = true :=
  ⟨by decide, atLath_fullInv, by decide, by decide, next_of_any (by decide)⟩

theorem witness_ExactlyOnePositionStaysActive :
    (holding 1005).FullInv ∧ (holding 1005).mode = .scanning ∧ oneActive (holding 1005) ∧
    ∃ t, step (holding 1005) = .next t :=
  ⟨holding_fullInv, by decide, holding_oneActive, next_of (by decide)⟩

theorem witness_PlainWritesAndTicksChangeOneField :
    configWf base.cfg = true ∧
    (∃ t, step { base with sched := [.writeStop false], stopReq := true } = .next t ∧
      decide (t.stopReq ≠ true) = true) ∧
    (∃ t, step { base with sched := [.issue 0x4300#16] } = .next t ∧ decide (t.stopReq ≠ base.stopReq) = true) ∧
    (∃ t, step { base with sched := [.writeTxseq [0x11#8]] } = .next t ∧ decide (t.txseq ≠ base.txseq) = true) ∧
    (∃ t, step { base with sched := [.writeRefreshHz 60] } = .next t ∧ decide (t.refreshHz ≠ base.refreshHz) = true) ∧
    (∃ t, step { base with sched := [.tick 5] } = .next t ∧ decide (t.now ≠ base.now) = true) :=
  ⟨by decide, next_of_any (by decide), next_of_any (by decide), next_of_any (by decide), next_of_any (by decide),
   next_of_any (by decide)⟩

end Sys2Proof.Tests
end

section
/-! Rules of the sequencer's advance and of the step, used by the proofs below. -/

namespace Sys2Proof.Machine

section
variable (s : State)

/-! ### pinDone and pinLost: the rules are those of `drive`, `attempt` and `raise` -/
@[simp] theorem pinDone_eq (p : Line) (l : Level) : pinDone p l s = drive p l (s.attempt p l) := rfl
@[simp] theorem pinLost_eq (p : Line) (l x : Level) :
    pinLost p l x s = raise .pinFault (drive p x (s.attempt p l)) := rfl

/-! ### afterLatl -/
theorem afterLatl_of_bytes (h : 0 < s.txbuf.length) : afterLatl s = { s with ph := .sdat } := by simp [afterLatl, h]
theorem afterLatl_of_no_bytes (h : ¬ 0 < s.txbuf.length) : afterLatl s = { s with ph := .lath } := by
  simp [afterLatl, h]
@[simp] theorem afterLatl_cfg : (afterLatl s).cfg = s.cfg := rfl
@[simp] theorem afterLatl_pos : (afterLatl s).pos = s.pos := rfl
@[simp] theorem afterLatl_txbuf : (afterLatl s).txbuf = s.txbuf := rfl
@[simp] theorem afterLatl_mode : (afterLatl s).mode = s.mode := rfl
@[simp] theorem afterLatl_frame : (afterLatl s).frame = s.frame := rfl
@[simp] theorem afterLatl_stopReq : (afterLatl s).stopReq = s.stopReq := rfl
@[simp] theorem afterLatl_txseq : (afterLatl s).txseq = s.txseq := rfl
@[simp] theorem afterLatl_refreshHz : (afterLatl s).refreshHz = s.refreshHz := rfl
@[simp] theorem afterLatl_now : (afterLatl s).now = s.now := rfl
@[simp] theorem afterLatl_res : (afterLatl s).res = s.res := rfl
@[simp] theorem afterLatl_sched : (afterLatl s).sched = s.sched := rfl
@[simp] theorem afterLatl_trace : (afterLatl s).trace = s.trace := rfl

/-! ### afterClkl -/
@[simp] theorem afterClkl_cfg : (afterClkl s).cfg = s.cfg := by unfold afterClkl; split_ifs <;> rfl
@[simp] theorem afterClkl_pos : (afterClkl s).pos = s.pos := by unfold afterClkl; split_ifs <;> rfl
@[simp] theorem afterClkl_txbuf : (afterClkl s).txbuf = s.txbuf := by unfold afterClkl; split_ifs <;> rfl
@[simp] theorem afterClkl_frame : (afterClkl s).frame = s.frame := by unfold afterClkl; split_ifs <;> rfl
@[simp] theorem afterClkl_stopReq : (afterClkl s).stopReq = s.stopReq := by unfold afterClkl; split_ifs <;> rfl
@[simp] theorem afterClkl_txseq : (afterClkl s).txseq = s.txseq := by unfold afterClkl; split_ifs <;> rfl
@[simp] theorem afterClkl_refreshHz : (afterClkl s).refreshHz = s.refreshHz := by unfold afterClkl; split_ifs <;> rfl
@[simp] theorem afterClkl_now : (afterClkl s).now = s.now := by unfold afterClkl; split_ifs <;> rfl
@[simp] theorem afterClkl_res : (afterClkl s).res = s.res := by unfold afterClkl; split_ifs <;> rfl
@[simp] theorem afterClkl_sched : (afterClkl s).sched = s.sched := by unfold afterClkl; split_ifs <;> rfl
@[simp] theorem afterClkl_trace : (afterClkl s).trace = s.trace := by unfold afterClkl; split_ifs <;> rfl

theorem scanning_of_afterClkl {s : State} (h : (afterClkl s).mode = .scanning) : s.mode = .scanning := by
  unfold afterClkl at h
  split_ifs at h
  · exact h
  · exact h
  · exact h
  · cases h

end

/-! ### Whose turn a step is -/

theorem step_of_sched_nil {s : State} (hc : configWf s.cfg = true) (hs : s.sched = []) : step s = seqStep s := by
  simp [step, machineStep, hc, hs]

theorem step_of_sched_cons {s : State} {a : Act} {rest : List Act} (hc : configWf s.cfg = true)
    (hs : s.sched = a :: rest) : step s = turn a { s with sched := rest } := by
  simp [step, machineStep, hc, hs]

/-- Whose turn a step was: the block's, on the state with some other schedule, or another agent's (R20). -/
theorem step_agent {s t : State} (h : step s = .next t) :
    (∃ rest, BlockStep { s with sched := rest } t) ∨
    (∃ a rest, s.sched = a :: rest ∧ CallerStep { s with sched := rest } a t) := by
  obtain ⟨-, ⟨-, hb⟩ | ⟨rest, -, hb⟩ | hc⟩ := step_cases h
  · exact .inl ⟨s.sched, hb⟩
  · exact .inl ⟨rest, hb⟩
  · exact .inr hc

end Sys2Proof.Machine
end

section
/-! The invariants of R52 and R31, phase by phase: what each phase knows of the operation in progress, the lines and
`TXBUF`, and that every turn of every agent keeps it. -/

namespace Sys2Proof.Machine

/-- The clauses of `State.Inv` that say the same in every phase: the configuration, the indices, the stores. -/
structure State.StoreInv (s : State) : Prop where
  cfgWf : configWf s.cfg = true
  posLt : s.pos < s.cfg.n
  bitLe : s.bitidx ≤ 7
  byteLe : s.byteidx ≤ s.txbuf.length
  frameWf : Memory.wf s.cfg.n s.frame = true
  shLen : s.sh.length = 8 * s.cfg.k
  outLen : s.out.length = 8 * s.cfg.k
  slotdurPos : 0 < s.slotdur
  t0Le : s.t0 ≤ s.now

/-- An operation is in progress, no pin fault has occurred, and `MODE` says whether the operation is a RUN (R31). -/
structure State.Running (s : State) : Prop where
  oper : s.oper ≠ none
  mode : s.mode = .scanning ↔ s.oper = some .run
  fault : s.fault ≠ some .pinFault
  trace : Event.fault .pinFault ∉ s.trace

/-- While scanning `TXBUF` holds `K` bytes (R52 e). -/
def State.SlotLen (s : State) : Prop := s.mode = .scanning → s.txbuf.length = s.cfg.k

/-- Inside the bytes of an operation: `LATCH` is high for a SHIFTBYTE alone (R129, R143), and the byte being shifted
exists (R24). -/
def State.Shifting (s : State) : Prop :=
  (s.oper = some .shiftByte → s.latch = true) ∧ (s.oper ≠ some .shiftByte → s.latch = false) ∧
  s.byteidx < s.txbuf.length ∧ s.SlotLen

/-- The other clauses of `State.Inv`, as the phase makes them read. -/
def State.PhaseInv (s : State) : Prop :=
  match s.ph with
  | .idle => s.mode = .stopped ∧ s.oper = none ∧ (¬ s.clockWriteFailed → s.clock = false) ∧
      (Event.fault .pinFault ∈ s.trace → s.fault = some .pinFault) ∧ (s.fault ≠ some .pinFault → s.latch = true)
  | .poll | .fetch => s.Running ∧ s.oper = some .run ∧ s.clock = false ∧ s.latch = true
  | .latl => s.Running ∧ s.oper ≠ some .shiftByte ∧ s.clock = false ∧ s.latch = true ∧ s.byteidx = 0 ∧ s.bitidx = 0 ∧
      s.SlotLen
  | .sdat | .clkh => s.Running ∧ s.Shifting ∧ s.clock = false
  | .clkl => s.Running ∧ s.Shifting
  | .lath => s.Running ∧ s.oper ≠ some .shiftByte ∧ s.clock = false ∧ s.latch = false ∧ s.SlotLen
  | .wait => s.Running ∧ s.oper = some .run ∧ s.clock = false ∧ s.latch = true ∧ s.SlotLen

theorem State.Inv.storeInv {s : State} (h : s.Inv) : s.StoreInv := { h with }

theorem State.Inv.running {s : State} (h : s.Inv) (hp : s.ph ≠ .idle) : s.Running where
  oper := mt h.idleIffNone.mpr hp
  mode := h.scanIffRun
  fault := fun hf => hp (h.pinFaultIdle hf).2
  trace := fun he => hp (h.pinFaultIdle (h.pinFaultSticky he)).2

theorem State.Inv.slotLen {s : State} (h : s.Inv) (hpoll : s.ph ≠ .poll) (hfetch : s.ph ≠ .fetch) : s.SlotLen :=
  fun hm => h.scanLen hm hpoll hfetch

theorem State.Inv.shifting {s : State} (h : s.Inv) (hp : s.ph = .sdat ∨ s.ph = .clkh ∨ s.ph = .clkl) : s.Shifting := by
  refine ⟨h.latchShift, fun ho => h.latchLow ho (by tauto), h.byteLt hp, h.slotLen ?_ ?_⟩ <;>
    (intro e; simp [e] at hp)

/-- The invariant gives what the phase makes of it. -/
theorem State.Inv.phaseInv {s : State} (h : s.Inv) : s.PhaseInv := by
  unfold State.PhaseInv
  cases hp : s.ph <;> dsimp only
  case idle =>
    have ho := h.idleIffNone.mp hp
    refine ⟨?_, ho, fun hc => h.clockLow hc (by simp [hp]), h.pinFaultSticky, fun hf => h.latchHigh hf (.inl hp)⟩
    cases hm : s.mode with
    | stopped => rfl
    | scanning => simp [h.scanIffRun.mp hm] at ho
  all_goals
    have hr := h.running (by simp [hp])
    have hc := h.clock_low hr.fault
    have hl := h.latchHigh hr.fault
    refine ⟨hr, ?_⟩
  case poll | fetch => exact ⟨h.slotPhases (by simp [hp]), hc (by simp [hp]), hl (by simp [hp])⟩
  case latl =>
    obtain ⟨hbyte, hbit⟩ := h.start hp
    exact ⟨h.latchPhases (by simp [hp]), hc (by simp [hp]), h.latchStart hp, hbyte, hbit,
      h.slotLen (by simp [hp]) (by simp [hp])⟩
  case sdat | clkh => exact ⟨h.shifting (by simp [hp]), hc (by simp [hp])⟩
  case clkl => exact h.shifting (by simp [hp])
  case lath =>
    have ho := h.latchPhases (by simp [hp])
    exact ⟨ho, hc (by simp [hp]), h.latchLow ho (by simp [hp]), h.slotLen (by simp [hp]) (by simp [hp])⟩
  case wait =>
    exact ⟨h.slotPhases (by simp [hp]), hc (by simp [hp]), hl (by simp [hp]), h.slotLen (by simp [hp]) (by simp [hp])⟩

/-- The clauses of the stores and of the phase together are the invariant. -/
theorem State.StoreInv.inv {s : State} (hs : s.StoreInv) (h : s.PhaseInv) : s.Inv := by
  unfold State.PhaseInv at h
  cases hp : s.ph <;> simp only [hp, State.SlotLen, State.Shifting] at h
  case idle =>
    obtain ⟨hm, ho, hc, hf, hl⟩ := h
    exact { hs with
      clockLow := fun hw _ => hc hw, latchHigh := fun hn _ => hl hn
      pinFaultSticky := hf, pinFaultIdle := fun _ => ⟨hm, hp⟩
      byteLt := by simp [hp], start := by simp [hp], latchStart := by simp [hp], latchShift := by simp [ho]
      latchLow := by simp [hp], scanLen := by simp [hm], scanIffRun := by simp [hm, ho], idleIffNone := by simp [hp, ho]
      slotPhases := by simp [hp], latchPhases := by simp [hp] }
  all_goals
    obtain ⟨⟨ho, hm, hf, ht⟩, h⟩ := h
    exact { hs with
      scanIffRun := hm, pinFaultSticky := fun he => absurd he ht, pinFaultIdle := fun hn => absurd hn hf
      idleIffNone := by simp [hp, ho], byteLt := by simp_all, start := by simp_all, clockLow := by simp_all
      latchHigh := by simp_all, latchStart := by simp_all, latchShift := by simp_all, latchLow := by simp_all
      scanLen := by simp_all, slotPhases := by simp_all, latchPhases := by simp_all }

/-! ### The block's turns -/

theorem drive_out_length (p : Line) (l : Level) {s : State} (h : s.out.length = s.sh.length) :
    (drive p l s).out.length = s.out.length := by
  cases p
  · rfl
  · rw [drive_clock_out]; split <;> simp [h]
  · rw [drive_latch_out]; split <;> simp [h]

/-- A pin write, done or failed, keeps the stores. -/
theorem State.StoreInv.drive_attempt {s : State} (h : s.StoreInv) (p : Line) (l x : Level) :
    (drive p x (s.attempt p l)).StoreInv := by
  have hout : (drive p x (s.attempt p l)).out.length = s.out.length :=
    drive_out_length p x (s := s.attempt p l) (h.outLen.trans h.shLen.symm)
  constructor <;> simp [h.cfgWf, h.posLt, h.bitLe, h.byteLe, h.frameWf, h.shLen, hout, h.outLen, h.slotdurPos, h.t0Le]

theorem State.StoreInv.pinDone {s : State} (h : s.StoreInv) (p : Line) (l : Level) : (pinDone p l s).StoreInv :=
  h.drive_attempt p l l

theorem State.Running.pinDone {s : State} (h : s.Running) (p : Line) (l : Level) : (pinDone p l s).Running := by
  constructor <;> simp [h.oper, h.mode, h.fault, h.trace]

/-- What the CLKL phase makes of the place in `TXBUF` (R214). -/
theorem State.StoreInv.afterClkl {s : State} (h : s.StoreInv) (hb : s.byteidx < s.txbuf.length) :
    (afterClkl s).StoreInv := by
  unfold Machine.afterClkl
  split_ifs
  · exact { h with bitLe := by simp; omega }
  · exact { h with bitLe := by simp, byteLe := by simp; omega }
  · exact { h with bitLe := by simp, byteLe := by simp; omega }
  · exact { h with bitLe := by simp, byteLe := by simp; omega }

/-- The block's turn keeps the configuration, the indices and the stores. -/
theorem BlockStep.storeInv {s t : State} (h : BlockStep s t) (hi : s.Inv) : t.StoreInv := by
  have hs := hi.storeInv
  cases h with
  | idle | hold => exact hs
  | pollStop | pollGo | fetchBad => exact { hs with }
  | fetchGo v q hp hpos => exact { hs with bitLe := Nat.zero_le _, byteLe := Nat.zero_le _ }
  | pinFail p l x => exact { hs.drive_attempt p l x with }
  | latl | sdat | clkh | lathDone => exact { hs.pinDone _ _ with }
  | clkl hp => exact (hs.pinDone _ _).afterClkl (by simpa using hi.byteLt (by simp [hp]))
  | lathHold => exact { hs.pinDone _ _ with t0Le := by simp }
  | advance => exact { hs with posLt := Nat.mod_lt _ (by have := hs.posLt; omega) }

/-- A failed pin write ends the operation: a failed write of CLOCK is on record, any other leaves CLOCK low. -/
theorem PinPhase.phaseInv_pinLost {s : State} {p : Line} {l x : Level} (h : PinPhase s p l) (hi : s.PhaseInv) :
    (pinLost p l x s).PhaseInv := by
  refine ⟨rfl, rfl, fun hw => ?_, fun _ => by simp, fun hn => by simp at hn⟩
  unfold State.PhaseInv at hi
  cases h with
  | latl hp => simp only [hp] at hi; simp [hi]
  | sdat b hp => simp only [hp] at hi; simp [hi]
  | lath hp => simp only [hp] at hi; simp [hi]
  | clkh | clkl => exact absurd ⟨_, by simpa using List.infix_append' s.trace _ []⟩ hw

/-- The LATL phase ends with LATCH low, at the first bit or, without a byte, at the commit (R213). -/
theorem State.PhaseInv.afterLatl {s : State} (hi : s.PhaseInv) (hp : s.ph = .latl) :
    (afterLatl (pinDone .latch false s)).PhaseInv := by
  simp only [State.PhaseInv, hp] at hi
  obtain ⟨hr, ho, hc, -, hbyte, -, hlen⟩ := hi
  have hr := hr.pinDone .latch false
  by_cases hb : 0 < s.txbuf.length
  · rw [afterLatl_of_bytes _ (by simpa using hb)]
    exact ⟨{ hr with }, ⟨fun h => absurd (by simpa using h) ho, fun _ => by simp, by simpa [hbyte] using hb,
      by simpa [State.SlotLen] using hlen⟩, by simpa using hc⟩
  · rw [afterLatl_of_no_bytes _ (by simpa using hb)]
    exact ⟨{ hr with }, by simpa using ho, by simpa using hc, by simp, by simpa [State.SlotLen] using hlen⟩

/-- Only a SHIFTBYTE ends with its bytes (R214). -/
theorem State.Running.shiftByte {s : State} (hr : s.Running) (h : ¬ (s.oper = some .transmit ∨ s.oper = some .run)) :
    s.oper = some .shiftByte := by
  cases ho : s.oper with
  | none => exact absurd ho hr.oper
  | some o => cases o <;> simp [ho] at h ⊢

/-- The CLKL phase ends with CLOCK low, at the next bit, at the commit, or with the SHIFTBYTE done (R214). -/
theorem State.PhaseInv.afterClkl {s : State} (hi : s.PhaseInv) (hp : s.ph = .clkl) :
    (afterClkl (pinDone .clock false s)).PhaseInv := by
  simp only [State.PhaseInv, hp] at hi
  obtain ⟨hr, hshift, hnot, hbyte, hlen⟩ := hi
  have hr' := hr.pinDone .clock false
  unfold Machine.afterClkl
  split_ifs with hbit hnext hlath
  · exact ⟨{ hr' with }, by simpa [State.Shifting, State.SlotLen] using ⟨hshift, hnot, hbyte, hlen⟩, by simp⟩
  · have hnext : s.byteidx + 1 < s.txbuf.length := by simpa using hnext
    exact ⟨{ hr' with }, by simpa [State.Shifting, State.SlotLen] using ⟨hshift, hnot, hnext, hlen⟩, by simp⟩
  · have ho : s.oper ≠ some .shiftByte := fun e => by simp [e] at hlath
    exact ⟨{ hr' with }, by simpa using ho, by simp, by simpa using hnot ho, by simpa [State.SlotLen] using hlen⟩
  · have ho := hr.shiftByte (by simpa using hlath)
    exact ⟨rfl, rfl, fun _ => by simp, fun he => absurd he hr'.trace, fun _ => by simpa using hshift ho⟩

/-- The block's turn keeps the clauses of the phase. -/
theorem BlockStep.phaseInv {s t : State} (h : BlockStep s t) (hi : s.Inv) : t.PhaseInv := by
  have hp := hi.phaseInv
  cases h with
  | idle | hold => exact hp
  | pollStop hph =>
    simp only [State.PhaseInv, hph] at hp
    obtain ⟨hr, -, hc, hl⟩ := hp
    exact ⟨rfl, rfl, fun _ => hc, fun he => absurd (by simpa using he) hr.trace, fun _ => hl⟩
  | pollGo hph =>
    simp only [State.PhaseInv, hph] at hp
    obtain ⟨hr, ho, hc, hl⟩ := hp
    exact ⟨{ hr with trace := by simpa using hr.trace }, ho, hc, hl⟩
  | fetchBad v hph =>
    simp only [State.PhaseInv, hph] at hp
    obtain ⟨hr, -, hc, hl⟩ := hp
    exact ⟨rfl, rfl, fun _ => hc, fun he => absurd (by simpa using he) hr.trace, fun _ => hl⟩
  | fetchGo v q hph hpos =>
    simp only [State.PhaseInv, hph] at hp
    obtain ⟨hr, ho, hc, hl⟩ := hp
    exact ⟨{ hr with trace := by simpa using hr.trace }, by simp [ho], hc, hl, rfl, rfl,
      fun _ => by simp [maskOf_length hi.cfgWf hpos, Config.k]⟩
  | pinFail p l x hpin => exact hpin.phaseInv_pinLost hp
  | latl hph => exact hp.afterLatl hph
  | sdat b hph =>
    simp only [State.PhaseInv, hph] at hp
    obtain ⟨hr, hsh, hc⟩ := hp
    exact ⟨{ hr.pinDone _ _ with }, by simpa [State.Shifting, State.SlotLen] using hsh, by simpa using hc⟩
  | clkh hph =>
    simp only [State.PhaseInv, hph] at hp
    obtain ⟨hr, hsh, -⟩ := hp
    exact ⟨{ hr.pinDone _ _ with }, by simpa [State.Shifting, State.SlotLen] using hsh⟩
  | clkl hph => exact hp.afterClkl hph
  | lathHold hph _ hm =>
    simp only [State.PhaseInv, hph] at hp
    obtain ⟨hr, -, hc, -, hlen⟩ := hp
    have hr' := hr.pinDone .latch true
    exact ⟨{ hr' with trace := by simpa using hr'.trace }, by simpa using hr.mode.mp hm,
      by simpa using hc, by simp, by simpa [State.SlotLen] using hlen⟩
  | lathDone hph =>
    simp only [State.PhaseInv, hph] at hp
    obtain ⟨hr, -, hc, -⟩ := hp
    exact ⟨rfl, rfl, fun _ => by simpa using hc, fun he => absurd he (hr.pinDone .latch true).trace,
      fun _ => by simp⟩
  | advance hph =>
    simp only [State.PhaseInv, hph] at hp
    obtain ⟨hr, ho, hc, hl, -⟩ := hp
    exact ⟨{ hr with }, ho, hc, hl⟩

/-! ### The turns of the caller and of the time source -/

theorem slotDuration_pos (hz : Rat) (n : Nat) (hhz : 0 < hz.num) (hn : 0 < n) : 0 < slotDuration hz n := by
  have hz' : 0 < hz := Rat.num_pos.mp hhz
  rw [slotDuration_eq hz n hz']
  positivity

/-- A ready block has its bus at rest: CLOCK low, LATCH high, no pin fault on record (R52 c, d). -/
theorem State.Inv.ready_bus {s : State} (hi : s.Inv) (hr : s.ready) :
    s.clock = false ∧ s.latch = true ∧ Event.fault .pinFault ∉ s.trace := by
  obtain ⟨-, hp, hf⟩ := hr
  exact ⟨hi.clock_low hf (by simp [hp]), hi.latchHigh hf (.inl hp), fun he => hf (hi.pinFaultSticky he)⟩

/-- A turn of the caller or of the time source keeps the invariant. -/
theorem CallerStep.inv {s t : State} {a : Act} (h : CallerStep s a t) (hi : s.Inv) : t.Inv := by
  have hs := hi.storeInv
  cases h with
  | stop | writeStop | writeTxseq | writeRefreshHz => exact { hi with }
  | tick d => exact { hi with t0Le := Nat.le_add_right_of_le hi.t0Le }
  | writeFrame i v hlt => exact { hi with frameWf := Memory.wf_write _ _ _ _ hlt hi.frameWf }
  | actmask => exact { hi with }
  | encode =>
    exact { hi with
      pinFaultSticky := fun he => by simpa using hi.pinFaultSticky he
      latchHigh := fun hf => hi.latchHigh (by simpa using hf)
      pinFaultIdle := fun hf => hi.pinFaultIdle (by simpa using hf) }
  | encodeBad w d p hd hm hph =>
    have hp := hi.phaseInv
    simp only [State.PhaseInv, hph] at hp
    obtain ⟨-, -, hc, hf, hl⟩ := hp
    refine State.StoreInv.inv { hs with } ⟨rfl, rfl, fun hw => ?_, fun he => ?_, fun hn => ?_⟩
    · exact hc fun hw' => hw (clockWriteFailed_of_append rfl hw')
    · simpa using hf (by simpa using he)
    · exact hl (by simpa using hn)
  | shiftbyte w v hd hr =>
    obtain ⟨hc, hl, he⟩ := hi.ready_bus hr
    refine State.StoreInv.inv { hs with bitLe := Nat.zero_le _, byteLe := Nat.zero_le _ } ⟨?_, ?_, hc⟩
    · exact ⟨by simp, by simp [hr.1], hr.2.2, he⟩
    · exact ⟨fun _ => hl, by simp, by simp, by simp [State.SlotLen, hr.1]⟩
  | transmit w len hd hr =>
    obtain ⟨hc, hl, he⟩ := hi.ready_bus hr
    exact State.StoreInv.inv { hs with bitLe := Nat.zero_le _, byteLe := Nat.zero_le _ }
      ⟨⟨by simp, by simp [hr.1], hr.2.2, he⟩, by simp, hc, hl, rfl, rfl, by simp [State.SlotLen, hr.1]⟩
  | run w hd hr hhz hwf =>
    obtain ⟨hc, hl, he⟩ := hi.ready_bus hr
    have hn : 0 < s.cfg.n := Nat.zero_lt_of_lt hi.posLt
    exact State.StoreInv.inv { hs with posLt := hn, slotdurPos := slotDuration_pos _ _ hhz hn }
      ⟨⟨by simp, by simp, by simpa using hr.2.2, he⟩, rfl, hc, hl⟩

/-- Settles O45: the stores and the clauses of the phase are kept by the block's turn, the invariant by the others'. -/
theorem stepKeepsTheStateInvariants : Obligations.StepKeepsTheStateInvariants := by
  intro s t hi h
  obtain ⟨rest, hb⟩ | ⟨a, rest, -, hc⟩ := step_agent h
  · have hi : { s with sched := rest }.Inv := { hi with }
    exact (hb.storeInv hi).inv (hb.phaseInv hi)
  · exact hc.inv { hi with }

end Sys2Proof.Machine
end

section
/-! The transaction in progress: the bits of `TXBUF` sent so far are in the lowest stages (R26, R150), and the scanner's
transaction carries a digit's pattern and the select bytes of `POS` (R192 to R194). -/

namespace Sys2Proof.Machine

/-- Bit `8*j + i` on the wire is transmitted bit `i` of byte `j` (R67, R68). -/
theorem sentBits_getElem? (bs : List Byte) (j i : Nat) (hi : i < 8) :
    (sentBits bs)[8 * j + i]? = (bs[j]?).map fun v => dataBit v i := by
  induction bs generalizing j with
  | nil => simp [sentBits]
  | cons v bs ih =>
    have e : sentBits (v :: bs) = (List.range 8).map (dataBit v) ++ sentBits bs := rfl
    rw [e]
    cases j with
    | zero => simp [List.getElem?_append, hi]
    | succ j =>
      rw [List.getElem?_append_right (by simp; omega)]
      have : 8 * (j + 1) + i - ((List.range 8).map (dataBit v)).length = 8 * j + i := by simp; omega
      rw [this, ih]; rfl

/-- The first `n` bits of `TXBUF` are in the lowest stages, the last of them in stage 0 (R150). -/
def State.Sent (s : State) (n : Nat) : Prop :=
  s.sh.take n = (((sentBits s.txbuf).take n).reverse).take s.sh.length

/-- A rising edge of CLOCK sends the next bit, when DATA holds it (R150). -/
theorem State.Sent.shiftIn {s t : State} {n : Nat} (h : s.Sent n) (hbit : (sentBits s.txbuf)[n]? = some s.data)
    (hsh : t.sh = shiftIn s.data s.sh) (htx : t.txbuf = s.txbuf) : t.Sent (n + 1) := by
  unfold State.Sent at h ⊢
  rw [hsh, htx, shiftIn_length, List.take_add_one (l := sentBits s.txbuf), hbit]
  unfold Machine.shiftIn
  rw [List.take_take, Nat.min_comm, ← List.take_take, List.take_succ_cons, h]
  cases s.sh.length with
  | zero => simp
  | succ m => simp [List.take_take]

/-- The phases of a transaction after its first write. -/
def Phase.sending (p : Phase) : Prop := p = .sdat ∨ p = .clkh ∨ p = .clkl ∨ p = .lath ∨ p = .wait

/-- Outside a transaction, and before its first bit, there is nothing to know of it. -/
theorem State.ShiftInv.of_not_sending {s : State} (h : ¬ s.ph.sending) : s.ShiftInv where
  done hp := absurd (by unfold Phase.sending; tauto) h
  bitSet hp := absurd (by unfold Phase.sending; tauto) h
  head hp := absurd hp h

theorem State.ShiftInv.sent {s : State} (h : s.ShiftInv) (hp : s.ph.sending) : s.Sent s.bitsIn := h.head hp

/-- The bit of the SDAT phase is the next one of `TXBUF` on the wire (R24, R67). -/
theorem sentBits_of_txBit {s : State} {b : Level} (hb : s.txBit = some b) (hbit : s.bitidx ≤ 7) :
    (sentBits s.txbuf)[8 * s.byteidx + s.bitidx]? = some b := by
  rw [sentBits_getElem? _ _ _ (by omega)]
  exact hb

/-- The LATL phase starts the transaction with no bit sent (R213). -/
theorem shiftInv_afterLatl {s : State} (hbyte : s.byteidx = 0) (hbit : s.bitidx = 0) : (afterLatl s).ShiftInv := by
  by_cases hlen : 0 < s.txbuf.length
  · rw [afterLatl_of_bytes s hlen]
    exact ⟨by simp, by simp, fun _ => by simp [State.bitsIn, hbyte, hbit]⟩
  · rw [afterLatl_of_no_bytes s hlen]
    have h0 : s.byteidx = s.txbuf.length := by omega
    exact ⟨fun _ => ⟨h0, hbit⟩, by simp, fun _ => by simp [State.bitsIn, hbyte, hbit]⟩

/-- The CLKL phase moves on by one bit, which has been sent already (R214). -/
theorem shiftInv_afterClkl {s : State} (hbit : s.bitidx ≤ 7) (hbyte : s.byteidx < s.txbuf.length)
    (h : s.Sent (8 * s.byteidx + s.bitidx + 1)) : (afterClkl s).ShiftInv := by
  unfold afterClkl
  split_ifs with h7 hnext hlath
  · exact ⟨by simp, by simp, fun _ => by simpa [State.Sent, State.bitsIn, Nat.add_assoc] using h⟩
  · refine ⟨by simp, by simp, fun _ => ?_⟩
    have e : 8 * (s.byteidx + 1) = 8 * s.byteidx + s.bitidx + 1 := by omega
    simpa [State.Sent, State.bitsIn, e] using h
  · refine ⟨fun _ => ⟨by simp; omega, rfl⟩, by simp, fun _ => ?_⟩
    have e : 8 * (s.byteidx + 1) = 8 * s.byteidx + s.bitidx + 1 := by omega
    simpa [State.Sent, State.bitsIn, e] using h
  · exact .of_not_sending (by simp [Phase.sending])

/-- The block's turn keeps what is known of the bits sent. -/
theorem BlockStep.shiftInv {s t : State} (h : BlockStep s t) (hi : s.Inv) (hs : s.ShiftInv) : t.ShiftInv := by
  cases h with
  | idle | hold => exact hs
  | pollStop | pollGo | fetchBad | fetchGo | pinFail | lathDone | advance =>
    exact .of_not_sending (by simp [Phase.sending])
  | latl hph =>
    obtain ⟨hbyte, hbit⟩ := hi.start hph
    exact shiftInv_afterLatl (by simpa using hbyte) (by simpa using hbit)
  | sdat b hph hf hb =>
    have h := hs.sent (by simp [Phase.sending, hph])
    refine ⟨by simp, fun _ => hb, fun _ => ?_⟩
    simpa [State.Sent, State.bitsIn, hph] using h
  | clkh hph hf =>
    have h := hs.sent (by simp [Phase.sending, hph])
    have hsh : (pinDone .clock true s).sh = shiftIn s.data s.sh := by
      simp [drive_clock_sh, hi.clock_low hf (by simp [hph])]
    have h := h.shiftIn (t := pinDone .clock true s)
      (by simpa [State.bitsIn, hph] using sentBits_of_txBit (hs.bitSet hph) hi.bitLe) hsh (by simp)
    exact ⟨by simp, by simp, fun _ => by simpa [State.Sent, State.bitsIn, hph] using h⟩
  | clkl hph =>
    have h := hs.sent (by simp [Phase.sending, hph])
    exact shiftInv_afterClkl (by simpa using hi.bitLe)
      (by simpa using hi.byteLt (by simp [hph])) (by simpa [State.Sent, State.bitsIn, drive_clock_sh, hph] using h)
  | lathHold hph =>
    have h := hs.sent (by simp [Phase.sending, hph])
    exact ⟨fun _ => by simpa using hs.done (.inl hph), by simp,
      fun _ => by simpa [State.Sent, State.bitsIn, hph] using h⟩

/-- What is known of the scanner's transaction stays while `TXBUF`, `POS` and the configuration do. -/
theorem State.SlotInv.congr {s t : State} (h : s.SlotInv) (hpoll : s.ph ≠ .poll) (hfetch : s.ph ≠ .fetch)
    (hm : t.mode = .scanning → s.mode = .scanning) (hcfg : t.cfg = s.cfg) (hpos : t.pos = s.pos)
    (htx : t.txbuf = s.txbuf) : t.SlotInv := by
  intro hmt _ _
  rw [hcfg, hpos, htx]
  exact h (hm hmt) hpoll hfetch

/-- The block's turn keeps what is known of the scanner's transaction; FETCH builds it (R212, R192 to R194). -/
theorem BlockStep.slotInv {s t : State} (h : BlockStep s t) (hs : s.SlotInv) : t.SlotInv := by
  cases h with
  | idle | hold => exact hs
  | pollStop | fetchBad | pinFail | lathDone => exact fun hm => absurd hm (by simp)
  | pollGo => exact fun _ _ hf => absurd rfl hf
  | advance => exact fun _ hp => absurd rfl hp
  | fetchGo v q hph hpos hread hq =>
    obtain ⟨h0, h9⟩ := (segPattern_isSome_iff v s.cfg.polarity).mp (by simp [hq])
    exact fun _ _ _ => ⟨v, q, h0, h9, hq, rfl⟩
  | latl hph | sdat b hph | clkh hph | lathHold hph =>
    exact hs.congr (by simp [hph]) (by simp [hph]) (by simp) (by simp) (by simp) (by simp)
  | clkl hph =>
    exact hs.congr (by simp [hph]) (by simp [hph]) (fun hm => by simpa using scanning_of_afterClkl hm) (by simp)
      (by simp) (by simp)

/-- A turn of the caller or of the time source keeps what is known of the bits sent: it starts an operation, or leaves
it alone. -/
theorem CallerStep.shiftInv {s t : State} {a : Act} (h : CallerStep s a t) (hs : s.ShiftInv) : t.ShiftInv := by
  cases h with
  | stop | writeStop | writeTxseq | writeRefreshHz | tick | writeFrame | actmask | encode => exact { hs with }
  | encodeBad | transmit | run => exact .of_not_sending (by simp [Phase.sending])
  | shiftbyte => exact ⟨by simp, by simp, fun _ => by simp [State.bitsIn]⟩

theorem CallerStep.slotInv {s t : State} {a : Act} (h : CallerStep s a t) (hs : s.SlotInv) : t.SlotInv := by
  cases h with
  | stop | writeStop | writeTxseq | writeRefreshHz | tick | writeFrame | actmask | encode => exact hs
  | encodeBad => exact fun hm => absurd hm (by simp)
  | shiftbyte w v hd hr | transmit w len hd hr => exact fun hm => absurd hm (by simp [hr.1])
  | run => exact fun _ hp => absurd rfl hp

/-- Settles O46, from the block's turn and the others' on the bits sent and on the scanner's transaction. -/
theorem stepKeepsTheTransactionInvariants : Obligations.StepKeepsTheTransactionInvariants := by
  intro s t hi h
  obtain ⟨rest, hb⟩ | ⟨a, rest, -, hc⟩ := step_agent h
  · exact ⟨hb.shiftInv { hi.inv with } { hi.shift with }, hb.slotInv hi.slot⟩
  · exact ⟨hc.shiftInv { hi.shift with }, hc.slotInv hi.slot⟩

end Sys2Proof.Machine
end

section
/-! The state before the first operation (R50, R260). -/

namespace Sys2Proof.Machine

/-- Settles O43: the values of R50 and R47, and the configuration of log 10, evaluated. -/
theorem resetValuesOfTheSpec : Obligations.ResetValuesOfTheSpec := by
  unfold Obligations.ResetValuesOfTheSpec
  decide

theorem reset_storeInv : State.reset.StoreInv := by constructor <;> decide

theorem reset_phaseInv : State.reset.PhaseInv := ⟨rfl, rfl, fun _ => rfl, by simp [State.reset], fun _ => rfl⟩

/-- Settles O44: at reset the block is idle, with its bus at rest and no transaction in progress. -/
theorem resetMeetsTheInvariants : Obligations.ResetMeetsTheInvariants where
  inv := reset_storeInv.inv reset_phaseInv
  shift := .of_not_sending (by simp [Phase.sending, State.reset])
  slot := fun hm => by cases hm

end Sys2Proof.Machine
end

section
/-! What a step runs and what it refuses (R29, R101, R106, R211 to R215). -/

namespace Sys2Proof.Machine

/-- What follows an operation that leaves no pin fault behind is all that matters to `proceed` (R214). -/
theorem proceed_congr {o : Outcome} {f g : State → Outcome}
    (h : ∀ t, o = .next t → t.fault ≠ some .pinFault → f t = g t) : proceed o f = proceed o g := by
  cases o with
  | next t =>
    by_cases ht : t.fault = some .pinFault
    · simp [ht]
    · simp [ht, h t rfl ht]
  | fault | refused => rfl

/-- A pin write that succeeds keeps `MODE`. -/
theorem pinOp_mode {p : Line} {l : Level} {s t : State} (h : pinOp p l s = .next t) (hf : t.fault ≠ some .pinFault) :
    t.mode = s.mode := by
  obtain ⟨-, rfl | ⟨x, rfl⟩⟩ := pinOp_next h
  · simp
  · simp at hf

/-- What follows the write of the LATH phase depends on the `MODE` that the phase is entered with (R215). -/
theorem seqStep_lath {s : State} {f : State → Outcome} (hp : s.ph = .lath)
    (hf : ∀ t, t.mode = s.mode → afterLath t = f t) : seqStep s = proceed (exec .lath s) f := by
  simp only [seqStep, hp]
  exact proceed_congr fun t ht hn => hf t (pinOp_mode ht hn)

/-- Settles O5, from whose turn the step is and from the phase the sequencer is in. -/
theorem stepRunsTheOperationOfThePhase : Obligations.StepRunsTheOperationOfThePhase := by
  refine ⟨fun s hc hs => step_of_sched_nil hc hs, fun s rest hc hs => step_of_sched_cons hc hs, fun s hp => ?idle,
    fun s hp => ?poll, fun s hp => ?latl, fun s v hp hv => ?sdat, fun s hp => ?clkh, fun s hp => ?clkl,
    fun s hp hm => ?done, fun s hp hm => ?hold⟩
  case idle | poll | latl | clkh | clkl => simp [seqStep, hp]
  case sdat => simp [seqStep, hp, State.txBit, hv, dataBit]
  case done | hold => exact seqStep_lath hp fun t ht => by simp [afterLath, ht, hm]

/-- Settles O6: each refusal is the branch of the step that names it. -/
theorem stepRefusesByName : Obligations.StepRefusesByName := by
  refine ⟨fun s hc => ?_, fun s w r rest hc hs hd => ?_, fun s w i rest hc hs hd hi => ?_, fun s hph hpos hr => ?_⟩
  · simp [step, machineStep, hc]
  · rw [step_of_sched_cons hc hs]
    simp [turn, issueStep, hd]
  · rw [step_of_sched_cons hc hs]
    simp [turn, issueStep, hd, hi]
  · simp [seqStep, fetchStep, hph, hpos, hr]

end Sys2Proof.Machine
end

section
/-! What the turns leave alone: `POS` outside the hold and RUN entry (R25), the state of the other agents (R22, R33,
R35), and all but one entry of the frame store (R61). -/

namespace Sys2Proof.Machine

/-! ### POS -/

/-- A word is its two fields (R104). -/
theorem opWord_fields (w : Word) : opWord (opField w) (immField w) = w := by
  unfold opWord opField immField
  ext i hi
  rw [BitVec.getElem_append, ← BitVec.getLsbD_eq_getElem hi]
  split
  · simp
  · rw [BitVec.getElem_extractLsb']
    congr 1
    omega

theorem zeroImm_eq_ok {op imm : Byte} {i j : Instr} : zeroImm op imm i = .ok j ↔ imm = 0#8 ∧ i = j := by
  unfold zeroImm
  split_ifs with h <;> simp [h]

theorem decodeFields_run {op imm : Byte} (h : decodeFields op imm = .ok .run) : op = 0x42#8 ∧ imm = 0#8 := by
  by_cases hop : op = 0x42#8
  · subst hop
    exact ⟨rfl, (zeroImm_eq_ok.mp h).1⟩
  · simp only [decodeFields, ite_eq_iff, zeroImm_eq_ok, hop, reduceCtorEq, and_false, false_and, Except.ok.injEq,
      or_false] at h

/-- `0x4200` is the only word of RUN (R105). -/
theorem eq_of_decode_run {w : Word} (h : decode w = .ok .run) : w = 0x4200#16 := by
  obtain ⟨hop, himm⟩ := decodeFields_run h
  rw [← opWord_fields w, hop, himm]
  rfl

/-- The block's turn keeps `POS`, but for the end of a hold (R25, R216). -/
theorem BlockStep.pos {s t : State} (h : BlockStep s t) :
    t.pos = s.pos ∨ (s.ph = .wait ∧ s.holdOver = true ∧ t.pos = (s.pos + 1) % s.cfg.n ∧ t.ph = .poll) := by
  cases h with
  | advance hph hold => exact .inr ⟨hph, hold, rfl, rfl⟩
  | idle | hold | pollStop | pollGo | fetchBad | fetchGo => exact .inl rfl
  | pinFail | latl | sdat | clkh | clkl | lathHold | lathDone => exact .inl (by simp)

/-- A turn of the caller or of the time source keeps `POS`, but for RUN (R25, R203). -/
theorem CallerStep.pos {s t : State} {a : Act} (h : CallerStep s a t) :
    t.pos = s.pos ∨ (a = .issue 0x4200#16 ∧ t.pos = 0 ∧ t.mode = .scanning) := by
  cases h with
  | run w hd => exact .inr ⟨by rw [eq_of_decode_run hd], rfl, rfl⟩
  | shiftbyte | transmit | encode | encodeBad | actmask | stop | writeFrame | writeStop | writeTxseq | writeRefreshHz |
    tick => exact .inl rfl

theorem execRun_pos {s t : State} (h : exec .run s = .next t) : t.pos = 0 := by
  obtain ⟨-, -, h⟩ := whenIdle_next h
  obtain ⟨-, h⟩ := unlessPinFault_next h
  split_ifs at h
  cases h
  rfl

/-- Settles O49, from what the block's turn and the caller's turn do to `POS`. -/
theorem positionMovesOnlyAfterTheHold : Obligations.PositionMovesOnlyAfterTheHold := by
  refine ⟨fun s t h => ?_, fun s t => execRun_pos⟩
  obtain ⟨rest, hb⟩ | ⟨a, rest, hs, hc⟩ := step_agent h
  · rcases hb.pos with hp | ⟨hph, ho, hp⟩
    · exact .inl hp
    · exact .inr (.inl ⟨hph, (holdOver_iff _).mp ho, hp⟩)
  · rcases hc.pos with hp | ⟨rfl, hp⟩
    · exact .inl hp
    · exact .inr (.inr ⟨by simp [hs], hp⟩)

/-! ### The other agents' state -/

/-- The block's turn writes nothing of the caller or the time source (R22, R33, R62), nor the configuration (R35). -/
theorem BlockStep.keeps {s t : State} (h : BlockStep s t) :
    t.cfg = s.cfg ∧ t.frame = s.frame ∧ t.stopReq = s.stopReq ∧ t.txseq = s.txseq ∧ t.refreshHz = s.refreshHz ∧
    t.now = s.now ∧ t.res = s.res ∧ t.sched = s.sched := by
  cases h with
  | idle | hold | pollStop | pollGo | fetchBad | fetchGo | advance => exact ⟨rfl, rfl, rfl, rfl, rfl, rfl, rfl, rfl⟩
  | pinFail | latl | sdat | clkh | clkl | lathHold | lathDone => simp

/-- The block's turn appends to `TRACE` (R48). -/
theorem BlockStep.trace {s t : State} (h : BlockStep s t) : s.trace <+: t.trace := by
  cases h with
  | idle | hold | advance => exact List.prefix_rfl
  | pollStop | pollGo | fetchBad | fetchGo => simp
  | pinFail | latl | sdat | clkh | clkl | lathHold | lathDone => simp

/-- A turn of the caller or of the time source keeps the configuration, and neither `NOW` nor `TRACE` goes back. -/
theorem CallerStep.keeps {s t : State} {a : Act} (h : CallerStep s a t) :
    t.cfg = s.cfg ∧ s.now ≤ t.now ∧ s.trace <+: t.trace := by
  cases h with
  | tick => exact ⟨rfl, Nat.le_add_right _ _, List.prefix_rfl⟩
  | encodeBad => exact ⟨rfl, le_rfl, List.prefix_append _ _⟩
  | shiftbyte | transmit | encode | actmask | run | stop | writeFrame | writeStop | writeTxseq | writeRefreshHz =>
    exact ⟨rfl, le_rfl, List.prefix_rfl⟩

/-- Settles O53, from what the block's turn and the others' keep. -/
theorem blockLeavesTheOtherAgentsState : Obligations.BlockLeavesTheOtherAgentsState := by
  refine ⟨fun s t h => (seqStep_cases h).keeps.2, fun s t h => ?_⟩
  obtain ⟨rest, hb⟩ | ⟨a, rest, -, hc⟩ := step_agent h
  · obtain ⟨hcfg, -, -, -, -, hnow, -⟩ := hb.keeps
    obtain ⟨es, he⟩ := hb.trace
    exact ⟨hcfg, hnow.ge, es, he.symm⟩
  · obtain ⟨hcfg, hnow, es, he⟩ := hc.keeps
    exact ⟨hcfg, hnow, es, he.symm⟩

/-- Settles O54, by the laws of the frame store. -/
theorem frameWriteChangesOneEntry : Obligations.FrameWriteChangesOneEntry := by
  intro s i v
  refine ⟨fun hi => ⟨Memory.write s.frame i v, ?_, Memory.read_write_same _ _ _,
    fun j hj => Memory.read_write_other _ _ _ _ hj, Memory.wf_write _ _ _ _ hi⟩, fun hi => ?_⟩
  · simp [turn, hi]
  · simp [turn, hi]

end Sys2Proof.Machine
end

section
/-! Noninterference: what the block's turn and the caller's operations do not read (R23, R33, R204). -/

namespace Sys2Proof.Machine

/-- Two outcomes stop for the same reason, or go on in related states. -/
inductive Related (R : State → State → Prop) : Outcome → Outcome → Prop
  | next {t t' : State} : R t t' → Related R (.next t) (.next t')
  | fault (r : Fault) : Related R (.fault r) (.fault r)
  | refused (r : Refusal) : Related R (.refused r) (.refused r)

section
variable {R : State → State → Prop} {s s' : State} {o o' : Outcome}

theorem Related.proceed {f f' : State → Outcome} (ho : Related R o o')
    (hfault : ∀ t t', R t t' → t'.fault = t.fault) (hf : ∀ t t', R t t' → Related R (f t) (f' t')) :
    Related R (proceed o f) (proceed o' f') := by
  cases ho with
  | @next t t' h =>
    by_cases ht : t.fault = some .pinFault
    · rw [proceed_of_pinFault t f ht, proceed_of_pinFault t' f' (by rw [hfault t t' h, ht])]
      exact .next h
    · rw [proceed_of_noPinFault t f ht, proceed_of_noPinFault t' f' (by rw [hfault t t' h]; exact ht)]
      exact hf t t' h
  | fault r => exact .fault r
  | refused r => exact .refused r

theorem Related.whenIdle (hm : s'.mode = s.mode) (hp : s'.ph = s.ph) (ho : Related R o o') :
    Related R (whenIdle s o) (whenIdle s' o') := by
  unfold Machine.whenIdle
  rw [hm, hp]
  split_ifs
  · exact .refused _
  · exact ho
  · exact .refused _

theorem Related.unlessPinFault (hf : s'.fault = s.fault) (ho : Related R o o') :
    Related R (unlessPinFault s o) (unlessPinFault s' o') := by
  unfold Machine.unlessPinFault
  rw [hf]
  split_ifs
  · exact .refused _
  · exact ho

theorem Related.pinOp {p : Line} {l : Level} (hf : s'.fault = s.fault) (h : R (pinWrite p l s) (pinWrite p l s')) :
    Related R (pinOp p l s) (pinOp p l s') := by
  unfold Machine.pinOp
  rw [hf]
  split_ifs
  · exact .refused _
  · exact .next h

end

/-! ### What the block's turn does not read -/

/-- The levels of the lines and the contents of the chain. -/
def State.bus (s : State) : Level × Level × Level × List Level × List Level := (s.data, s.clock, s.latch, s.sh, s.out)

/-- `s` with the lines, the chain, the frame store, `STOP_REQ` and the two ports of `h`. -/
def State.overlay (s h : State) : State :=
  { s with
    data := h.data, clock := h.clock, latch := h.latch, sh := h.sh, out := h.out
    frame := h.frame, stopReq := h.stopReq, refreshHz := h.refreshHz, txseq := h.txseq }

@[simp] theorem afterClkl_bus (s : State) : (afterClkl s).bus = s.bus := by unfold afterClkl; split_ifs <;> rfl

section
variable (s h : State)
@[simp] theorem overlay_cfg : (s.overlay h).cfg = s.cfg := rfl
@[simp] theorem overlay_mode : (s.overlay h).mode = s.mode := rfl
@[simp] theorem overlay_pos : (s.overlay h).pos = s.pos := rfl
@[simp] theorem overlay_holdOver : (s.overlay h).holdOver = s.holdOver := rfl
@[simp] theorem overlay_pinAnswer : (s.overlay h).pinAnswer = s.pinAnswer := rfl
@[simp] theorem overlay_attempt (p : Line) (l : Level) : (s.overlay h).attempt p l = (s.attempt p l).overlay h := rfl
end

/-- `t'` is `t` but for such an overlay, one that leaves lines and chain as they are when `c` holds. -/
def Overlaid (c : Prop) (t t' : State) : Prop := ∃ h : State, t' = t.overlay h ∧ (c → h.bus = t.bus)

theorem drive_bus_congr (p : Line) (l : Level) {s s' : State} (hb : s'.bus = s.bus) (hc : s'.cfg = s.cfg) :
    (drive p l s').bus = (drive p l s).bus := by
  simp only [State.bus, Prod.mk.injEq] at hb ⊢
  obtain ⟨hd, hclk, hl, hsh, hout⟩ := hb
  cases p <;> simp [drive_clock_sh, drive_clock_out, drive_latch_out, hd, hclk, hl, hsh, hout, hc]

/-- The reaction of a line and the chain to a level leaves the rest of an overlay alone. -/
theorem drive_overlay (p : Line) (l : Level) (t h : State) :
    drive p l (t.overlay h) = (drive p l t).overlay (drive p l (t.overlay h)) := by
  unfold drive chainReact
  cases p <;> dsimp only
  · rfl
  all_goals split_ifs <;> rfl

section
variable {c : Prop} {t t' : State}

theorem Overlaid.drive (ht : Overlaid c t t') (p : Line) (l : Level) : Overlaid c (drive p l t) (drive p l t') := by
  obtain ⟨h, rfl, hb⟩ := ht
  exact ⟨_, drive_overlay p l t h, fun hc => drive_bus_congr p l (s := t) (s' := t.overlay h) (hb hc) rfl⟩

theorem Overlaid.pinWrite (ht : Overlaid c t t') (p : Line) (l : Level) :
    Overlaid c (pinWrite p l t) (pinWrite p l t') := by
  obtain ⟨h, rfl, hb⟩ := ht
  have hatt : Overlaid c (t.attempt p l) ((t.attempt p l).overlay h) := ⟨h, rfl, hb⟩
  unfold Machine.pinWrite
  rw [overlay_pinAnswer, overlay_attempt]
  cases t.pinAnswer with
  | ok => exact hatt.drive p l
  | fail x =>
    obtain ⟨h', e, hb'⟩ := hatt.drive p x
    exact ⟨h', congrArg (raise .pinFault) e, hb'⟩

theorem afterClkl_overlay (t h : State) : afterClkl (t.overlay h) = (afterClkl t).overlay h := by
  simp only [Machine.afterClkl, apply_ite (State.overlay · h)]
  rfl

theorem Overlaid.afterClkl (ht : Overlaid c t t') : Overlaid c (afterClkl t) (afterClkl t') := by
  obtain ⟨h, rfl, hb⟩ := ht
  exact ⟨h, afterClkl_overlay t h, fun hc => (hb hc).trans (afterClkl_bus t).symm⟩

theorem Overlaid.afterLath (ht : Overlaid c t t') : Related (Overlaid c) (afterLath t) (afterLath t') := by
  obtain ⟨h, rfl, hb⟩ := ht
  unfold Machine.afterLath
  rw [overlay_mode]
  cases t.mode with
  | scanning | stopped => exact .next ⟨h, rfl, hb⟩

theorem Overlaid.holdStep (ht : Overlaid c t t') : Overlaid c (holdStep t) (holdStep t') := by
  obtain ⟨h, rfl, hb⟩ := ht
  unfold Machine.holdStep
  rw [overlay_holdOver]
  split_ifs <;> exact ⟨h, rfl, hb⟩

/-- SLOT reads `STOP_REQ` (R211). -/
theorem Overlaid.execSlot (ht : Overlaid c t t') (hstop : t'.stopReq = t.stopReq) :
    Related (Overlaid c) (execSlot t) (execSlot t') := by
  obtain ⟨h, rfl, hb⟩ := ht
  unfold Machine.execSlot
  rw [hstop]
  cases t.stopReq with
  | true | false => exact .next ⟨h, rfl, hb⟩

/-- FETCH reads the entry `POS` of the frame store (R212). -/
theorem Overlaid.fetchStep (ht : Overlaid c t t') (hread : Memory.read t'.frame t.pos = Memory.read t.frame t.pos) :
    Related (Overlaid c) (fetchStep t) (fetchStep t') := by
  obtain ⟨h, rfl, hb⟩ := ht
  unfold Machine.fetchStep
  simp only [overlay_pos, overlay_cfg, hread]
  split_ifs
  · cases Memory.read t.frame t.pos with
    | none => exact .refused _
    | some v =>
      dsimp only
      cases segPattern v t.cfg.polarity with
      | none | some q => exact .next ⟨h, rfl, hb⟩
  · exact .fault _

end

/-- The block's turn reads neither lines nor chain, no port, `STOP_REQ` in POLL alone, and of the frame store the entry
`POS` in FETCH alone (R23, R33, R62, R204). -/
theorem Overlaid.seqStep {c : Prop} {s s' : State} (hs : Overlaid c s s')
    (hpoll : s.ph = .poll → s'.stopReq = s.stopReq)
    (hfetch : s.ph = .fetch → Memory.read s'.frame s.pos = Memory.read s.frame s.pos) :
    Related (Overlaid c) (seqStep s) (seqStep s') := by
  have pin (p : Line) (l : Level) {f : State → Outcome}
      (hf : ∀ t t', Overlaid c t t' → Related (Overlaid c) (f t) (f t')) :
      Related (Overlaid c) (proceed (pinOp p l s) f) (proceed (pinOp p l s') f) := by
    refine Related.proceed (.pinOp ?_ (hs.pinWrite p l)) ?_ hf
    · obtain ⟨h, rfl, -⟩ := hs; rfl
    · rintro t _ ⟨h, rfl, -⟩; rfl
  have hph : s'.ph = s.ph := by obtain ⟨h, rfl, -⟩ := hs; rfl
  have hbit : s'.txBit = s.txBit := by obtain ⟨h, rfl, -⟩ := hs; rfl
  unfold Machine.seqStep
  rw [hph]
  cases hp : s.ph with
  | idle => exact .next hs
  | poll => exact hs.execSlot (hpoll hp)
  | fetch => exact hs.fetchStep (hfetch hp)
  | latl => exact pin _ _ fun t _ ⟨h, e, hb⟩ => .next ⟨h, congrArg afterLatl e, hb⟩
  | sdat =>
    dsimp only
    rw [hbit]
    cases s.txBit with
    | none => exact .fault _
    | some l => exact pin _ _ fun t _ ⟨h, e, hb⟩ => .next ⟨h, e ▸ rfl, hb⟩
  | clkh => exact pin _ _ fun t _ ⟨h, e, hb⟩ => .next ⟨h, e ▸ rfl, hb⟩
  | clkl => exact pin _ _ fun t t' ht => .next ht.afterClkl
  | lath => exact pin _ _ fun t t' ht => ht.afterLath
  | wait => exact .next hs.holdStep

/-- The caller's fields in what a turn of the block on `s'` makes of an overlay are those of `s'` (R22). -/
theorem overlay_keeps {s' t h : State} (ht : seqStep s' = .next (t.overlay h)) :
    h.frame = s'.frame ∧ h.stopReq = s'.stopReq ∧ h.refreshHz = s'.refreshHz ∧ h.txseq = s'.txseq := by
  obtain ⟨-, hframe, hstop, htx, hhz, -⟩ := (seqStep_cases ht).keeps
  exact ⟨hframe, hstop, hhz, htx⟩

/-- Settles O52: `STOP_REQ` and the ports are an overlay that leaves lines and chain alone. -/
theorem blockPollsTheStopRequestOnlyInPoll : Obligations.BlockPollsTheStopRequestOnlyInPoll := by
  intro s b hz bs hb
  have hs : Overlaid True s { s with stopReq := b, refreshHz := hz, txseq := bs } :=
    ⟨{ s with stopReq := b, refreshHz := hz, txseq := bs }, rfl, fun _ => rfl⟩
  have h := hs.seqStep (fun hp => hb.resolve_left (absurd hp)) fun _ => rfl
  generalize ho : seqStep s = o at h ⊢
  generalize ho' : seqStep { s with stopReq := b, refreshHz := hz, txseq := bs } = o' at h ⊢
  cases h with
  | fault | refused => rfl
  | @next t t' h =>
    obtain ⟨h, rfl, hbus⟩ := h
    obtain ⟨hframe, hstop, hhz, htx⟩ := overlay_keeps ho'
    obtain ⟨-, hframe', -⟩ := (seqStep_cases ho).keeps
    have hbus := hbus trivial
    simp only [State.bus, Prod.mk.injEq] at hbus
    obtain ⟨hd, hc, hl, hsh, hout⟩ := hbus
    simp [State.overlay, *]

/-! ### What the caller's operations do not read -/

/-- What the caller's operation makes of `s`, but for other lines and another chain, which stay as they are. -/
def CallerAlike (s h t t' : State) : Prop :=
  t.bus = s.bus ∧ t' = { t with data := h.data, clock := h.clock, latch := h.latch, sh := h.sh, out := h.out }

/-- An operation of the caller neither reads nor writes lines and chain (R23, R101). -/
theorem exec_callerAlike {i : Instr} (hi : i.internal = false) (s h : State) :
    Related (CallerAlike s h) (exec i s)
      (exec i { s with data := h.data, clock := h.clock, latch := h.latch, sh := h.sh, out := h.out }) := by
  cases i with
  | sdat | clkh | clkl | latl | lath | wait | slot => cases hi
  | stop => exact .next ⟨rfl, rfl⟩
  | shiftbyte | transmit =>
    exact .whenIdle rfl rfl (.unlessPinFault rfl (.next ⟨rfl, rfl⟩))
  | encode d p =>
    refine .whenIdle rfl rfl ?_
    cases segPattern d p with
    | none | some q => exact .next ⟨rfl, rfl⟩
  | actmask i =>
    refine .whenIdle rfl rfl ?_
    dsimp only
    split_ifs
    · exact .next ⟨rfl, rfl⟩
    · exact .refused _
  | run =>
    refine .whenIdle rfl rfl (.unlessPinFault rfl ?_)
    dsimp only
    split_ifs
    · exact .refused _
    · exact .next ⟨rfl, rfl⟩
    · exact .refused _

/-- Settles O50: other lines and another chain are an overlay for the block, and nothing at all for the caller. -/
theorem blockReadsNothingBack : Obligations.BlockReadsNothingBack := by
  intro s d c l sh out
  refine ⟨?_, fun i hi => ?_⟩
  · have hs : Overlaid False s { s with data := d, clock := c, latch := l, sh := sh, out := out } :=
      ⟨{ s with data := d, clock := c, latch := l, sh := sh, out := out }, rfl, nofun⟩
    have h := hs.seqStep (fun _ => rfl) fun _ => rfl
    generalize ho : seqStep s = o at h ⊢
    generalize ho' : seqStep { s with data := d, clock := c, latch := l, sh := sh, out := out } = o' at h ⊢
    cases h with
    | fault | refused => rfl
    | @next t t' h =>
      obtain ⟨h, rfl, -⟩ := h
      obtain ⟨hframe, hstop, hhz, htx⟩ := overlay_keeps ho'
      obtain ⟨-, hframe', hstop', htx', hhz', -⟩ := (seqStep_cases ho).keeps
      exact ⟨h.data, h.clock, h.latch, h.sh, h.out, by simp [State.overlay, *]⟩
  · have h := exec_callerAlike hi s { s with data := d, clock := c, latch := l, sh := sh, out := out }
    dsimp only at h
    generalize exec i s = o at h ⊢
    generalize exec i { s with data := d, clock := c, latch := l, sh := sh, out := out } = o' at h ⊢
    cases h with
    | fault | refused => rfl
    | next h =>
      obtain ⟨hbus, rfl⟩ := h
      simpa [State.bus, and_assoc] using hbus

end Sys2Proof.Machine
end

section
/-! Noninterference of the frame store: the block reads the entry `POS` alone and writes none (R62). -/

namespace Sys2Proof.Machine

/-- An overlay that leaves lines and chain alone changes the caller's fields alone (R22). -/
theorem Overlaid.eq_of_bus {t t' : State} (ht : Overlaid True t t') :
    t' = { t with frame := t'.frame, stopReq := t'.stopReq, refreshHz := t'.refreshHz, txseq := t'.txseq } := by
  obtain ⟨h, rfl, hb⟩ := ht
  have hbus := hb trivial
  simp only [State.bus, Prod.mk.injEq] at hbus
  obtain ⟨hd, hc, hl, hsh, hout⟩ := hbus
  simp [State.overlay, hd, hc, hl, hsh, hout]

/-- Settles O51: another frame store is an overlay that leaves lines and chain alone, and the block's turn keeps the
frame store. -/
theorem blockReadsOnlyTheCurrentEntry : Obligations.BlockReadsOnlyTheCurrentEntry := by
  intro s f hread
  have hs : Overlaid True s { s with frame := f } := ⟨{ s with frame := f }, rfl, fun _ => rfl⟩
  have h := hs.seqStep (fun _ => rfl) hread
  generalize ho : seqStep s = o at h ⊢
  generalize ho' : seqStep { s with frame := f } = o' at h ⊢
  cases h with
  | fault | refused => rfl
  | @next t t' h =>
    obtain ⟨-, hframe, hstop, htx, hhz, -⟩ := (seqStep_cases ho).keeps
    obtain ⟨-, hframe', hstop', htx', hhz', -⟩ := (seqStep_cases ho').keeps
    refine ⟨hframe, ?_⟩
    rw [h.eq_of_bus, hframe', hstop', htx', hhz', ← hstop, ← htx, ← hhz]

end Sys2Proof.Machine
end

section
/-! Which turns stop the machine with a fault: each is an access to a store entry that does not exist (R60, R24). -/

namespace Sys2Proof.Machine

/-! ### The shared operations -/

theorem pinOp_ne_fault (p : Line) (l : Level) (s : State) (r : Fault) : pinOp p l s ≠ .fault r := by
  by_cases hf : s.fault = some .pinFault
  · simp [pinOp_of_pinFault p l s hf]
  · simp [pinOp_of_noPinFault p l s hf]

theorem afterLath_ne_fault (s : State) (r : Fault) : afterLath s ≠ .fault r := by
  unfold afterLath
  cases s.mode with
  | scanning | stopped => exact nofun

theorem proceed_ne_fault {o : Outcome} {f : State → Outcome} {r : Fault} (ho : o ≠ .fault r)
    (hf : ∀ t, f t ≠ .fault r) : proceed o f ≠ .fault r := by
  cases o with
  | next t =>
    by_cases ht : t.fault = some .pinFault
    · simp [ht]
    · simpa [ht] using hf t
  | fault q => exact ho
  | refused q => exact nofun

theorem whenIdle_ne_fault {s : State} {o : Outcome} {r : Fault} (ho : o ≠ .fault r) : whenIdle s o ≠ .fault r := by
  unfold whenIdle
  split_ifs
  · exact nofun
  · exact ho
  · exact nofun

theorem unlessPinFault_ne_fault {s : State} {o : Outcome} {r : Fault} (ho : o ≠ .fault r) :
    unlessPinFault s o ≠ .fault r := by
  unfold unlessPinFault
  split_ifs
  · exact nofun
  · exact ho

/-! ### The turns -/

/-- FETCH reads entry `POS` of the frame store, SDAT byte `BYTEIDX` of `TXBUF`: where these exist the block's turn does
not fault (R60, R24). -/
theorem seqStep_ne_fault {s : State} (hfetch : s.ph = .fetch → s.pos < s.cfg.n)
    (hsdat : s.ph = .sdat → s.byteidx < s.txbuf.length) (r : Fault) : seqStep s ≠ .fault r := by
  have pin (p : Line) (l : Level) {f : State → Outcome} (hf : ∀ t, f t ≠ .fault r) :
      proceed (pinOp p l s) f ≠ .fault r := proceed_ne_fault (pinOp_ne_fault p l s r) hf
  unfold seqStep
  cases hp : s.ph with
  | idle | poll | wait => exact nofun
  | fetch =>
    dsimp only [fetchStep]
    rw [if_pos (hfetch hp)]
    cases Memory.read s.frame s.pos with
    | none => exact nofun
    | some v =>
      dsimp only
      cases segPattern v s.cfg.polarity with
      | none | some q => exact nofun
  | sdat =>
    have hlt := hsdat hp
    have hbit : s.txBit = some (dataBit s.txbuf[s.byteidx] s.bitidx) := by simp [State.txBit, hlt]
    rw [hbit]
    exact pin _ _ fun _ => nofun
  | latl | clkh | clkl => exact pin _ _ fun _ => nofun
  | lath => exact pin _ _ fun t => afterLath_ne_fault t r

/-- The caller's operations are admitted or refused, and never fault (R235, R246). -/
theorem exec_ne_fault {i : Instr} (hi : i.internal = false) (s : State) (r : Fault) : exec i s ≠ .fault r := by
  cases i with
  | sdat | clkh | clkl | latl | lath | wait | slot => cases hi
  | stop => exact nofun
  | shiftbyte | transmit => exact whenIdle_ne_fault (unlessPinFault_ne_fault nofun)
  | encode d p =>
    refine whenIdle_ne_fault ?_
    cases segPattern d p with
    | none | some q => exact nofun
  | actmask i =>
    refine whenIdle_ne_fault ?_
    split_ifs <;> exact nofun
  | run =>
    refine whenIdle_ne_fault (unlessPinFault_ne_fault ?_)
    split_ifs <;> exact nofun

theorem issueStep_ne_fault (w : Word) (s : State) (r : Fault) : issueStep w s ≠ .fault r := by
  unfold issueStep
  cases decode w with
  | error e => exact nofun
  | ok i =>
    dsimp only
    split_ifs with hi
    · exact nofun
    · exact exec_ne_fault (by simpa using hi) s r

/-- `POS` is a position and, in SDAT, the byte being shifted exists (R52 a, R52 b). -/
theorem State.Inv.seqStep_ne_fault {s : State} (hi : s.Inv) (r : Fault) : seqStep s ≠ .fault r :=
  Machine.seqStep_ne_fault (fun _ => hi.posLt) (fun hp => hi.byteLt (.inl hp)) r

theorem State.Inv.turn_ne_fault {s : State} {a : Act} (hi : s.Inv) (ha : inRange s a) (r : Fault) :
    turn a s ≠ .fault r := by
  cases a with
  | block => exact hi.seqStep_ne_fault r
  | issue w => exact issueStep_ne_fault w s r
  | writeFrame i v =>
    have hlt : i < s.cfg.n := ha
    simp [turn, hlt]
  | writeStop | writeTxseq | writeRefreshHz | tick => exact nofun

/-- Settles O47, from whose turn the step is. -/
theorem invariantStatesDoNotFault : Obligations.InvariantStatesDoNotFault := by
  intro s hi hrange r
  cases hs : s.sched with
  | nil =>
    rw [step_of_sched_nil hi.cfgWf hs]
    exact hi.seqStep_ne_fault r
  | cons a rest =>
    rw [step_of_sched_cons hi.cfgWf hs]
    have hi' : { s with sched := rest }.Inv := { hi with }
    exact hi'.turn_ne_fault (hrange a rest hs) r

end Sys2Proof.Machine
end

section
/-! The command word (R104 to R106): the opcode table as a relation between fields and operations, and that the decoder
and the encoder are the two readings of it. -/

namespace Sys2Proof

open Sys2Proof.Laws Sys2Proof.Machine

/-! ### The two fields -/

@[simp] theorem opField_opWord (op imm : Byte) : opField (opWord op imm) = op := by
  unfold opField opWord
  rw [BitVec.extractLsb'_append_eq_left]

@[simp] theorem immField_opWord (op imm : Byte) : immField (opWord op imm) = imm := by
  unfold immField opWord
  rw [BitVec.extractLsb'_append_eq_right]

@[simp] theorem decode_opWord (op imm : Byte) : decode (opWord op imm) = decodeFields op imm := by
  simp [decode]

theorem opWord_inj {op imm op' imm' : Byte} : opWord op imm = opWord op' imm' ↔ op = op' ∧ imm = imm' := by
  refine ⟨fun h => ⟨?_, ?_⟩, fun ⟨hop, himm⟩ => by rw [hop, himm]⟩
  · simpa using congrArg opField h
  · simpa using congrArg immField h

/-! ### The opcode table -/

/-- The table of R105: the operation number and the immediate of every operation that has a command word. -/
inductive TableRow : Byte → Byte → Instr → Prop
  | sdat (b : Level) : TableRow 0x01#8 (if b then 1#8 else 0#8) (.sdat b)
  | clkh : TableRow 0x02#8 0#8 .clkh
  | clkl : TableRow 0x03#8 0#8 .clkl
  | latl : TableRow 0x04#8 0#8 .latl
  | lath : TableRow 0x05#8 0#8 .lath
  | wait : TableRow 0x06#8 0#8 .wait
  | shiftbyte (v : Byte) : TableRow 0x10#8 v (.shiftbyte v)
  | transmit (imm : Byte) : TableRow 0x11#8 imm (.transmit imm.toNat)
  | encode (imm : Byte) (p : Polarity) : TableRow (0x20#8 + BitVec.ofNat 8 p.code) imm (.encode (imm.toNat : Int) p)
  | actmask (imm : Byte) : TableRow 0x30#8 imm (.actmask imm.toNat)
  | slot : TableRow 0x40#8 0#8 .slot
  | run : TableRow 0x42#8 0#8 .run
  | stop : TableRow 0x43#8 0#8 .stop

/-- The decoder accepts what the table lists. -/
theorem TableRow.decodeFields_eq {op imm : Byte} {i : Instr} (h : TableRow op imm i) : decodeFields op imm = .ok i := by
  cases h with
  | sdat b => cases b <;> rfl
  | encode imm p => cases p <;> rfl
  | clkh | clkl | latl | lath | wait | shiftbyte | transmit | actmask | slot | run | stop => rfl

/-- A test of the operation number: the number tested for has its row, and the tests that follow have theirs. -/
theorem TableRow.of_ite {op imm n : Byte} {i : Instr} {e₁ e₂ : Except Reject Instr} (hrow : e₁ = .ok i → TableRow n imm i)
    (hrest : e₂ = .ok i → TableRow op imm i) (h : (if op = n then e₁ else e₂) = .ok i) : TableRow op imm i := by
  split at h
  · subst op
    exact hrow h
  · exact hrest h

/-- A row with a free immediate. -/
theorem TableRow.of_ok {op imm : Byte} {i j : Instr} (hrow : TableRow op imm i)
    (h : (.ok i : Except Reject Instr) = .ok j) : TableRow op imm j := by
  cases h
  exact hrow

/-- A row whose immediate must be zero. -/
theorem TableRow.of_zeroImm {op n imm : Byte} {i j : Instr} (hrow : TableRow n 0#8 i) (h : zeroImm op imm i = .ok j) :
    TableRow n imm j := by
  obtain ⟨rfl, rfl⟩ := zeroImm_eq_ok.mp h
  exact hrow

/-- The row of SDAT: the immediate is 0 or 1 (R106). -/
theorem TableRow.of_sdat {imm : Byte} {i : Instr}
    (h : decodeFields 0x01#8 imm = .ok i) : TableRow 0x01#8 imm i := by
  rw [decodeFields, if_pos rfl] at h
  split_ifs at h with h0 h1
  · cases h
    exact h0 ▸ .sdat false
  · cases h
    exact h1 ▸ .sdat true

/-- The decoder accepts nothing that the table does not list. -/
theorem TableRow.of_decodeFields {op imm : Byte} {i : Instr} :
    decodeFields op imm = .ok i → TableRow op imm i :=
  of_ite of_sdat <| of_ite (of_zeroImm .clkh) <| of_ite (of_zeroImm .clkl) <| of_ite (of_zeroImm .latl) <|
  of_ite (of_zeroImm .lath) <| of_ite (of_zeroImm .wait) <| of_ite (of_ok (.shiftbyte imm)) <|
  of_ite (of_ok (.transmit imm)) <| of_ite (of_ok (.encode imm .commonCathode)) <|
  of_ite (of_ok (.encode imm .commonAnode)) <| of_ite (of_ok (.actmask imm)) <| of_ite (of_zeroImm .slot) <|
  of_ite (of_zeroImm .run) <| of_ite (of_zeroImm .stop) nofun

/-- A listed operation's operand fits its field. -/
theorem TableRow.wellFormed {op imm : Byte} {i : Instr} (h : TableRow op imm i) : i.wellFormed = true := by
  cases h with
  | transmit imm | actmask imm => simpa [Instr.wellFormed] using imm.isLt
  | encode imm p =>
    have := imm.isLt
    simp only [Instr.wellFormed, decide_eq_true_eq]
    omega
  | sdat | clkh | clkl | latl | lath | wait | shiftbyte | slot | run | stop => rfl

/-- The encoder writes the table's fields. -/
theorem TableRow.encode_eq {op imm : Byte} {i : Instr} (h : TableRow op imm i) : Sys2Proof.encode i = opWord op imm := by
  cases h with
  | transmit | actmask | encode => simp [Sys2Proof.encode]
  | sdat | clkh | clkl | latl | lath | wait | shiftbyte | slot | run | stop => rfl

/-- Every operation whose operand fits its field is listed. -/
theorem exists_tableRow {i : Instr} (h : i.wellFormed = true) : ∃ op imm, TableRow op imm i := by
  cases i with
  | transmit len => exact ⟨_, _, .transmit (.ofNatLT len (of_decide_eq_true h))⟩
  | encode d p =>
    obtain ⟨h0, hd⟩ := of_decide_eq_true h
    lift d to Nat using h0
    exact ⟨_, _, .encode (.ofNatLT d (Int.ofNat_lt.mp hd)) p⟩
  | actmask j => exact ⟨_, _, .actmask (.ofNatLT j (of_decide_eq_true h))⟩
  | sdat b => exact ⟨_, _, .sdat b⟩
  | clkh => exact ⟨_, _, .clkh⟩
  | clkl => exact ⟨_, _, .clkl⟩
  | latl => exact ⟨_, _, .latl⟩
  | lath => exact ⟨_, _, .lath⟩
  | wait => exact ⟨_, _, .wait⟩
  | shiftbyte v => exact ⟨_, _, .shiftbyte v⟩
  | slot => exact ⟨_, _, .slot⟩
  | run => exact ⟨_, _, .run⟩
  | stop => exact ⟨_, _, .stop⟩

/-! ### Round trip -/

theorem decode_encode {i : Instr} (h : i.wellFormed = true) : decode (encode i) = .ok i := by
  obtain ⟨op, imm, hrow⟩ := exists_tableRow h
  rw [hrow.encode_eq, decode_opWord, hrow.decodeFields_eq]

theorem wellFormed_of_decode {w : Word} {i : Instr} (h : decode w = .ok i) : i.wellFormed = true :=
  (TableRow.of_decodeFields h).wellFormed

theorem encode_of_decode {w : Word} {i : Instr} (h : decode w = .ok i) : encode i = w := by
  rw [(TableRow.of_decodeFields h).encode_eq, opWord_fields]

/-- Settles O1: the decoder and the encoder read the same table, the one from the fields and the other from the
operation. -/
theorem decodeAndEncodeAgree : Obligations.DecodeAndEncodeAgree :=
  ⟨fun _ h => decode_encode h, fun _ _ h => ⟨wellFormed_of_decode h, encode_of_decode h⟩⟩

end Sys2Proof
end

section
/-! The match and mask rows of the opcode table (R105, R106), and the step that runs an issued word (R101, R104). -/

namespace Sys2Proof

open Sys2Proof.Laws Sys2Proof.Machine

/-! ### The word of an operation and its row -/

/-- The family `RowMatch` in one statement: the word of an operation is a word of the operation's row. -/
theorem encode_and_mask {i : Instr} (h : i.wellFormed = true) : encode i &&& (rowOf i).2 = (rowOf i).1 := by
  cases i with
  | sdat b => exact RowMatch.sdat b h
  | clkh => exact RowMatch.clkh h
  | clkl => exact RowMatch.clkl h
  | latl => exact RowMatch.latl h
  | lath => exact RowMatch.lath h
  | wait => exact RowMatch.wait h
  | shiftbyte v => exact RowMatch.shiftbyte v h
  | transmit len => exact RowMatch.transmit len h
  | encode d p => exact RowMatch.encode d p h
  | actmask j => exact RowMatch.actmask j h
  | slot => exact RowMatch.slot h
  | run => exact RowMatch.run h
  | stop => exact RowMatch.stop h

theorem rowOf_mem_opcodeRows (i : Instr) : rowOf i ∈ opcodeRows := by
  cases i <;> simp [rowOf, opcodeRows]

theorem rowOf_match_of_decode {w : Word} {i : Instr} (h : decode w = .ok i) : w &&& (rowOf i).2 = (rowOf i).1 := by
  rw [← encode_of_decode h]
  exact encode_and_mask (wellFormed_of_decode h)

/-! ### The words of a row -/

/-- A masked comparison of words is one of each field (R104). -/
theorem match_iff_fields {w : Word} {m n a b : Byte} :
    w &&& opWord m n = opWord a b ↔ opField w &&& m = a ∧ immField w &&& n = b := by
  have h : w &&& opWord m n = opWord (opField w &&& m) (immField w &&& n) := by
    conv_lhs => rw [← opWord_fields w]
    exact opWord_and _ _ _ _
  rw [h, opWord_inj]

/-- A full mask leaves a byte as it is. -/
theorem eq_of_and_full {x a : Byte} (h : x &&& 0xFF#8 = a) : x = a :=
  BitVec.and_allOnes.symm.trans h

/-- A row with a full mask has one word. -/
theorem decode_of_full_mask {w m : Word} {i : Instr} (hm : decode m = .ok i) (h : w &&& 0xFFFF#16 = m) :
    decode w = .ok i := by
  have hw : w = m := BitVec.and_allOnes.symm.trans h
  rw [hw, hm]

/-- A row with a free immediate fixes the operation number alone. -/
theorem decode_of_free_imm {w : Word} {op : Byte} {f : Byte → Instr} (hrow : ∀ imm, TableRow op imm (f imm))
    (h : w &&& 0xFF00#16 = opWord op 0#8) : decode w = .ok (f (immField w)) := by
  obtain ⟨hop, -⟩ := (match_iff_fields (m := 0xFF#8) (n := 0#8)).mp h
  rw [decode, eq_of_and_full hop, (hrow _).decodeFields_eq]

/-- The row of SDAT has two words (R106). -/
theorem sdat_of_mask {w : Word} (h : w &&& 0xFFFE#16 = 0x0100#16) : ∃ b, decode w = .ok (.sdat b) := by
  have himm : ∀ imm : Byte, imm &&& 0xFE#8 = 0#8 → imm = 0#8 ∨ imm = 1#8 := by decide
  obtain ⟨hop, hi⟩ := (match_iff_fields (m := 0xFF#8) (n := 0xFE#8) (a := 0x01#8) (b := 0#8)).mp h
  obtain hi | hi := himm _ hi
  · exact ⟨false, by rw [decode, eq_of_and_full hop, hi]; rfl⟩
  · exact ⟨true, by rw [decode, eq_of_and_full hop, hi]; rfl⟩

/-- The row of ENCODE has two operation numbers, one for each polarity (R105). -/
theorem encode_of_mask {w : Word} (h : w &&& 0xFE00#16 = 0x2000#16) : ∃ d p, decode w = .ok (.encode d p) := by
  have hop : ∀ op : Byte, op &&& 0xFE#8 = 0x20#8 → op = 0x20#8 ∨ op = 0x21#8 := by decide
  obtain ⟨ho, -⟩ := (match_iff_fields (m := 0xFE#8) (n := 0#8) (a := 0x20#8) (b := 0#8)).mp h
  obtain ho | ho := hop _ ho
  · exact ⟨_, .commonCathode, by rw [decode, ho]; rfl⟩
  · exact ⟨_, .commonAnode, by rw [decode, ho]; rfl⟩

/-- Every word of a row is accepted (R105). -/
theorem exists_decode_of_match {w : Word} {r : Word × Word} (hr : r ∈ opcodeRows) (h : w &&& r.2 = r.1) :
    ∃ i, decode w = .ok i := by
  simp only [opcodeRows, List.mem_cons, List.not_mem_nil, or_false] at hr
  obtain rfl | rfl | rfl | rfl | rfl | rfl | rfl | rfl | rfl | rfl | rfl | rfl | rfl := hr
  · obtain ⟨b, hb⟩ := sdat_of_mask h
    exact ⟨_, hb⟩
  · exact ⟨.clkh, decode_of_full_mask rfl h⟩
  · exact ⟨.clkl, decode_of_full_mask rfl h⟩
  · exact ⟨.latl, decode_of_full_mask rfl h⟩
  · exact ⟨.lath, decode_of_full_mask rfl h⟩
  · exact ⟨.wait, decode_of_full_mask rfl h⟩
  · exact ⟨_, decode_of_free_imm .shiftbyte h⟩
  · exact ⟨_, decode_of_free_imm .transmit h⟩
  · obtain ⟨d, p, hd⟩ := encode_of_mask h
    exact ⟨_, hd⟩
  · exact ⟨_, decode_of_free_imm .actmask h⟩
  · exact ⟨.slot, decode_of_full_mask rfl h⟩
  · exact ⟨.run, decode_of_full_mask rfl h⟩
  · exact ⟨.stop, decode_of_full_mask rfl h⟩

/-! ### No word is of two rows -/

/-- Two rows that share a word agree where both masks look. -/
theorem match_agree {w m n a b : Word} (ha : w &&& m = a) (hb : w &&& n = b) : a &&& n = b &&& m := by
  rw [← ha, ← hb, BitVec.and_assoc, BitVec.and_assoc, BitVec.and_comm m n]

/-- Two rows of the table never agree so. -/
theorem opcodeRows_disagree : opcodeRows.Pairwise fun r r' => r.1 &&& r'.2 ≠ r'.1 &&& r.2 := by
  decide

/-- The rows do not overlap (R105). -/
theorem row_eq_of_match {w : Word} {r r' : Word × Word} (hr : r ∈ opcodeRows) (hr' : r' ∈ opcodeRows)
    (h : w &&& r.2 = r.1) (h' : w &&& r'.2 = r'.1) : r = r' := by
  have hsymm : Std.Symm fun r r' : Word × Word => r.1 &&& r'.2 ≠ r'.1 &&& r.2 := ⟨fun _ _ => Ne.symm⟩
  by_contra hne
  exact opcodeRows_disagree.forall hr hr' hne (match_agree h h')

/-- Settles O2: an accepted word is the word of its operation, the words of a row decode row by row, and two rows that
share a word are one. -/
theorem wordAcceptedIffARowMatches : Obligations.WordAcceptedIffARowMatches := by
  refine ⟨fun w => ⟨?accepted, ?matched⟩, fun _ _ => rowOf_match_of_decode, fun w r hr r' hr' h h' => ?once⟩
  case accepted =>
    rintro ⟨i, hi⟩
    exact ⟨rowOf i, rowOf_mem_opcodeRows i, rowOf_match_of_decode hi⟩
  case matched =>
    rintro ⟨r, hr, h⟩
    exact exists_decode_of_match hr h
  case once => exact row_eq_of_match hr hr' h h'

/-! ### Words written out, and the step that runs an issued word -/

/-- Settles O3: the decoder evaluated on each word. -/
theorem wordsOfTheTableDecode : Obligations.WordsOfTheTableDecode := by
  unfold Obligations.WordsOfTheTableDecode
  decide

/-- The command port runs the operation of an accepted word that is not an internal one (R101, R104). -/
theorem issueStep_of_decode {w : Word} {i : Instr} (hd : decode w = .ok i) (hi : i.internal = false) (s : State) :
    issueStep w s = exec i s := by
  simp [issueStep, hd, hi]

/-- Settles O4: the step is the caller's turn, and the turn is what the command port runs. -/
theorem stepRunsTheIssuedWord : Obligations.StepRunsTheIssuedWord := by
  intro s w i rest hc hs hd hi
  calc step s = issueStep w { s with sched := rest } := step_of_sched_cons hc hs
    _ = exec i { s with sched := rest } := issueStep_of_decode hd hi _

end Sys2Proof
end

section
/-! The bits of one byte on the wire (R93, R94): the sequencer's three turns for each bit. -/

namespace Sys2Proof.Machine

/-! ### The oracle's answers -/

theorem State.okFor.pinAnswer {s : State} {n : Nat} (h : s.okFor (n + 1)) : s.pinAnswer = .ok := by
  unfold State.pinAnswer
  cases hp : s.pins with
  | nil => rfl
  | cons a as => exact h a (by simp [hp])

theorem State.okFor.mono {s : State} {m n : Nat} (h : s.okFor n) (hmn : m ≤ n) : s.okFor m :=
  fun a ha => h a (List.take_subset_take_left _ hmn ha)

theorem State.okFor.drop {s t : State} {m n : Nat} (h : s.okFor (m + n)) (ht : t.pins = s.pins.drop m) : t.okFor n := by
  intro a ha
  rw [ht, List.take_drop] at ha
  exact h a (List.mem_of_mem_drop ha)

theorem State.okFor.tail {s t : State} {n : Nat} (h : s.okFor (n + 1)) (ht : t.pins = s.pins.tail) : t.okFor n :=
  State.okFor.drop (m := 1) (by rwa [Nat.add_comm]) (by rw [ht, List.drop_one])

/-! ### One turn in each phase of a bit -/

/-- A pin micro-operation that the oracle answers ok, with what follows it (R121, R214). -/
theorem proceed_pinOp_of_ok {p : Line} {l : Level} {s : State} (f : State → Outcome) (hf : s.fault ≠ some .pinFault)
    (ha : s.pinAnswer = .ok) : proceed (pinOp p l s) f = f (pinDone p l s) := by
  rw [pinOp_of_noPinFault p l s hf, pinWrite_ok p l s ha]
  exact proceed_of_noPinFault _ f (by simpa using hf)

theorem seqStep_sdat_of_ok {s : State} {b : Level} (hp : s.ph = .sdat) (hb : s.txBit = some b)
    (hf : s.fault ≠ some .pinFault) (ha : s.pinAnswer = .ok) :
    seqStep s = .next { pinDone .data b s with ph := .clkh } := by
  simp only [seqStep, hp, hb]
  exact proceed_pinOp_of_ok _ hf ha

theorem seqStep_clkh_of_ok {s : State} (hp : s.ph = .clkh) (hf : s.fault ≠ some .pinFault) (ha : s.pinAnswer = .ok) :
    seqStep s = .next { pinDone .clock true s with ph := .clkl } := by
  simp only [seqStep, hp]
  exact proceed_pinOp_of_ok _ hf ha

theorem seqStep_clkl_of_ok {s : State} (hp : s.ph = .clkl) (hf : s.fault ≠ some .pinFault) (ha : s.pinAnswer = .ok) :
    seqStep s = .next (afterClkl (pinDone .clock false s)) := by
  simp only [seqStep, hp]
  exact proceed_pinOp_of_ok _ hf ha

/-! ### Runs of turns -/

theorem seqSteps_succ {s t : State} (n : Nat) (h : seqStep s = .next t) : seqSteps (n + 1) s = seqSteps n t := by
  simp [seqSteps, h]

theorem seqSteps_add {s t : State} {m : Nat} (n : Nat) (h : seqSteps m s = .next t) :
    seqSteps (m + n) s = seqSteps n t := by
  induction m generalizing s with
  | zero =>
    cases h
    rw [Nat.zero_add]
  | succ m ih =>
    cases hs : seqStep s with
    | next u =>
      rw [seqSteps_succ m hs] at h
      rw [Nat.succ_add, seqSteps_succ _ hs, ih h]
    | fault r | refused r => simp [seqSteps, hs] at h

/-! ### One bit -/

/-- The three writes of one bit (R93), up to the advance of R214. -/
def bitWritten (b : Level) (s : State) : State :=
  pinDone .clock false { pinDone .clock true { pinDone .data b s with ph := .clkh } with ph := .clkl }

section
variable (b : Level) (s : State)

@[simp] theorem bitWritten_trace : (bitWritten b s).trace = s.trace ++ wireBit b := by simp [bitWritten, wireBit]
@[simp] theorem bitWritten_pins : (bitWritten b s).pins = s.pins.drop 3 := by
  simp [bitWritten, ← List.drop_one]
@[simp] theorem bitWritten_fault : (bitWritten b s).fault = s.fault := by simp [bitWritten]
@[simp] theorem bitWritten_txbuf : (bitWritten b s).txbuf = s.txbuf := by simp [bitWritten]
@[simp] theorem bitWritten_byteidx : (bitWritten b s).byteidx = s.byteidx := by simp [bitWritten]
@[simp] theorem bitWritten_bitidx : (bitWritten b s).bitidx = s.bitidx := by simp [bitWritten]

end

/-- The three turns of one bit (R93, R214). -/
theorem seqSteps_bit {s : State} {b : Level} (hp : s.ph = .sdat) (hb : s.txBit = some b)
    (hf : s.fault ≠ some .pinFault) (hok : s.okFor 3) : seqSteps 3 s = .next (afterClkl (bitWritten b s)) := by
  have hok1 := hok.tail (t := { pinDone .data b s with ph := .clkh }) (by simp)
  have hok2 := hok1.tail (t := { pinDone .clock true { pinDone .data b s with ph := .clkh } with ph := .clkl }) (by simp)
  rw [seqSteps_succ 2 (seqStep_sdat_of_ok hp hb hf hok.pinAnswer),
    seqSteps_succ 1 (seqStep_clkh_of_ok rfl (by simpa using hf) hok1.pinAnswer),
    seqSteps_succ 0 (seqStep_clkl_of_ok rfl (by simpa using hf) hok2.pinAnswer)]
  rfl

/-! ### The bits of one byte -/

/-- The SDAT phase is about to send bit `i` of `v` (R24, R214). -/
structure State.AtBit (s : State) (v : Byte) (i : Nat) : Prop where
  ph : s.ph = .sdat
  byte : s.txbuf[s.byteidx]? = some v
  bit : s.bitidx = i
  fault : s.fault ≠ some .pinFault

theorem State.AtBit.txBit {s : State} {v : Byte} {i : Nat} (h : s.AtBit v i) : s.txBit = some (dataBit v i) := by
  simp [State.txBit, h.byte, h.bit]

theorem State.AtBit.next {s : State} {v : Byte} {i : Nat} (h : s.AtBit v i) (hi : i < 7) (b : Level) :
    (afterClkl (bitWritten b s)).AtBit v (i + 1) := by
  have hbit : (bitWritten b s).bitidx < 7 := by simpa [h.bit] using hi
  unfold afterClkl
  rw [if_pos hbit]
  exact ⟨rfl, by simpa using h.byte, by simp [h.bit], by simpa using h.fault⟩

@[simp] theorem afterClkl_pins (s : State) : (afterClkl s).pins = s.pins := by unfold afterClkl; split_ifs <;> rfl

/-- From bit `i` on: the remaining bits of the byte, three writes each, and no other event (R93, R94). -/
theorem State.AtBit.restOfByte {n : Nat} {s : State} {v : Byte} {i : Nat} (h : s.AtBit v i) (hi : i + n = 7)
    (hok : s.okFor (3 * (n + 1))) :
    ∃ u, seqSteps (3 * (n + 1)) s = .next u ∧
      u.trace = s.trace ++ (List.range' i (n + 1)).flatMap fun j => wireBit (dataBit v j) := by
  induction n generalizing s i with
  | zero =>
    refine ⟨_, seqSteps_bit h.ph h.txBit h.fault hok, ?_⟩
    simp
  | succ n ih =>
    have hlen : 3 * (n + 1 + 1) = 3 + 3 * (n + 1) := by ring
    rw [hlen] at hok ⊢
    have hbit := seqSteps_bit h.ph h.txBit h.fault (hok.mono (Nat.le_add_right _ _))
    have hrest := hok.drop (t := afterClkl (bitWritten (dataBit v i) s)) (by simp)
    obtain ⟨u, hu, htrace⟩ := ih (h.next (by omega) _) (by omega) hrest
    refine ⟨u, (seqSteps_add _ hbit).trans hu, ?_⟩
    rw [htrace, afterClkl_trace, bitWritten_trace, List.append_assoc, List.range'_succ (n := n + 1), List.flatMap_cons]

/-- One byte on the wire is its eight bits, bit 7 first (R94). -/
theorem State.AtBit.wireByte {s : State} {v : Byte} (h : s.AtBit v 0) (hok : s.okFor 24) :
    ∃ u, seqSteps 24 s = .next u ∧ u.trace = s.trace ++ Machine.wireByte v := by
  obtain ⟨u, hu, htrace⟩ := h.restOfByte (n := 7) rfl hok
  exact ⟨u, hu, htrace⟩

/-- What SHIFTBYTE issued to a ready block leaves for the sequencer (R210). -/
theorem shiftbyte_next {s t : State} {v : Byte} (h : exec (.shiftbyte v) s = .next t) :
    t.AtBit v 0 ∧ t.trace = s.trace ∧ t.pins = s.pins := by
  obtain ⟨-, -, h⟩ := whenIdle_next h
  obtain ⟨hf, h⟩ := unlessPinFault_next h
  cases h
  exact ⟨⟨rfl, rfl, rfl, hf⟩, rfl, rfl⟩

/-- Settles O14: the byte that SHIFTBYTE leaves in `TXBUF` goes out bit by bit, from bit 7 on. -/
theorem byteOnTheWire : Obligations.ByteOnTheWire := by
  intro s t v _ hok h
  obtain ⟨hbit, htrace, hpins⟩ := shiftbyte_next h
  have hokt : t.okFor 24 := hok.drop (m := 0) hpins
  obtain ⟨u, hu, hwire⟩ := hbit.wireByte hokt
  exact ⟨u, hu, by rw [hwire, htrace]; rfl⟩

end Sys2Proof.Machine
end

section
/-! The pin micro-operations (R121 to R128, R240): the whole next state of a write that succeeds and of one that fails. -/

namespace Sys2Proof.Machine

/-! ### The reaction of a line and the chain, as a record -/

theorem drive_data_eq (l : Level) (s : State) : drive .data l s = { s with data := l } := rfl

/-- R150, R152: a write of CLOCK. -/
theorem drive_clock_eq (l : Level) (s : State) :
    drive .clock l s = { s with
      clock := l
      sh := if s.clock = false ∧ l = true then shiftIn s.data s.sh else s.sh
      out := if s.clock = false ∧ l = true ∧ s.cfg.latchTransparent = true ∧ s.latch = true then shiftIn s.data s.sh
        else s.out } := by
  rw [← drive_clock_sh, ← drive_clock_out]
  unfold drive chainReact
  dsimp only
  split_ifs <;> rfl

/-- R151: a write of LATCH. -/
theorem drive_latch_eq (l : Level) (s : State) :
    drive .latch l s = { s with latch := l, out := if s.latch = false ∧ l = true then s.sh else s.out } := by
  rw [← drive_latch_out]
  unfold drive chainReact
  dsimp only
  split_ifs <;> rfl

/-! ### A write that succeeds, and one that fails -/

theorem pinOp_of_ok {s : State} (p : Line) (l : Level) (hf : s.fault ≠ some .pinFault) (hok : s.okFor 1) :
    pinOp p l s = .next (drive p l (s.attempt p l)) := by
  rw [pinOp_of_noPinFault p l s hf, pinWrite_ok p l s hok.pinAnswer]

/-- Taking PinFault does not touch what the line and the chain did (R240). -/
theorem raise_drive_attempt (p : Line) (l x : Level) (s : State) :
    raise .pinFault (drive p x (s.attempt p l)) = drive p x (pinFaulted p l s) := by
  cases p <;> simp [drive_data_eq, drive_clock_eq, drive_latch_eq, raise, pinFaulted, State.attempt]

theorem pinOp_of_fail {s : State} {x : Level} (p : Line) (l : Level) (hf : s.fault ≠ some .pinFault)
    (hx : s.pins.head? = some (.fail x)) : pinOp p l s = .next (drive p x (pinFaulted p l s)) := by
  have ha : s.pinAnswer = .fail x := by simp [State.pinAnswer, hx]
  rw [pinOp_of_noPinFault p l s hf, pinWrite_fail p l x s ha, raise_drive_attempt]

/-! ### The five operations -/

/-- Settles O7: DATA has no edge for the chain to react to. -/
theorem sdatWritesTheDataLine : Obligations.SdatWritesTheDataLine := by
  intro s b hf hok
  exact pinOp_of_ok .data b hf hok

/-- Settles O8: CLOCK low before the write is the rising edge of R150. -/
theorem clkhRaisesTheClockAndShifts : Obligations.ClkhRaisesTheClockAndShifts := by
  intro s hf hok
  have hexec : exec .clkh s = .next (drive .clock true (s.attempt .clock true)) := pinOp_of_ok .clock true hf hok
  rw [drive_clock_eq] at hexec
  refine ⟨fun hc => ?high, fun hc =>
    ⟨shiftIn s.data s.sh, shiftIn_length _ _, shiftIn_zero _ _, shiftIn_succ _ _, ?low⟩⟩
  all_goals simpa [State.attempt, hc] using hexec

/-- Settles O9: writing level 0 is no rising edge. -/
theorem loweringALineLeavesTheChain : Obligations.LoweringALineLeavesTheChain := by
  intro s hf hok
  have hclkl : exec .clkl s = .next (drive .clock false (s.attempt .clock false)) := pinOp_of_ok .clock false hf hok
  have hlatl : exec .latl s = .next (drive .latch false (s.attempt .latch false)) := pinOp_of_ok .latch false hf hok
  rw [drive_clock_eq] at hclkl
  rw [drive_latch_eq] at hlatl
  exact ⟨by simpa [State.attempt] using hclkl, by simpa [State.attempt] using hlatl⟩

/-- Settles O10: LATCH low before the write is the rising edge of R151. -/
theorem lathRaisesTheLatchAndCommits : Obligations.LathRaisesTheLatchAndCommits := by
  intro s hf hok
  have hexec : exec .lath s = .next (drive .latch true (s.attempt .latch true)) := pinOp_of_ok .latch true hf hok
  rw [drive_latch_eq] at hexec
  cases hl : s.latch with
  | true | false => simpa [State.attempt, hl] using hexec

/-- Settles O11: the line and the chain react to the drawn level in the state that PinFault leaves. -/
theorem failedPinWriteTakesPinFault : Obligations.FailedPinWriteTakesPinFault := by
  intro s x hf hx
  have fail (p : Line) (l : Level) : pinOp p l s = .next (drive p x (pinFaulted p l s)) := pinOp_of_fail p l hf hx
  refine ⟨fun b => fail .data b, ?clkh, ?clkl, ?latl, ?lath⟩
  case clkh => exact (fail .clock true).trans (congrArg _ (drive_clock_eq x _))
  case clkl => exact (fail .clock false).trans (congrArg _ (drive_clock_eq x _))
  case latl => exact (fail .latch false).trans (congrArg _ (drive_latch_eq x _))
  case lath => exact (fail .latch true).trans (congrArg _ (drive_latch_eq x _))

/-- Settles O12: WAIT has no condition on the state. -/
theorem waitStartsTheHold : Obligations.WaitStartsTheHold :=
  fun _ => rfl

end Sys2Proof.Machine
end

section
/-! The whole effect of the bits of a byte on lines, chain, trace and oracle (R93, R129, R150, R266). -/

namespace Sys2Proof.Machine

/-! ### The writes of a list of bits -/

/-- The bits that a rising edge shifts in: with CLOCK high at entry the first CLKH is no edge (R266). -/
def State.edgeBits (s : State) (bits : List Level) : List Level := bits.drop (if s.clock = true then 1 else 0)

/-- The stages after the writes of `bits` (R150). -/
def State.stagesAfter (s : State) (bits : List Level) : List Level :=
  ((s.edgeBits bits).reverse ++ s.sh).take s.sh.length

/-- What the three writes of each of `bits` (R93) make of lines, chain, trace and oracle. -/
def State.sendBits (s : State) (bits : List Level) : State :=
  { s with
    data := bits.getLast?.getD s.data
    clock := if bits = [] then s.clock else false
    sh := s.stagesAfter bits
    out := if s.edgeBits bits ≠ [] ∧ s.cfg.latchTransparent = true ∧ s.latch = true then s.stagesAfter bits else s.out
    trace := s.trace ++ bits.flatMap wireBit
    pins := s.pins.drop (3 * bits.length) }

theorem sendBits_nil (s : State) : s.sendBits [] = s := by
  simp [State.sendBits, State.stagesAfter, State.edgeBits]

/-- `bitWritten` is `sendBits` of one bit, up to the phase it stops in. -/
theorem bitWritten_eq_sendBits (b : Level) (s : State) : bitWritten b s = { s.sendBits [b] with ph := .clkl } := by
  cases hc : s.clock <;>
    simp [bitWritten, drive_data_eq, drive_clock_eq, State.attempt, State.sendBits, State.stagesAfter,
      State.edgeBits, wireBit, hc, shiftIn, ← List.drop_one]

/-- What is cut off at the end does not come back below it. -/
theorem take_append_take {α : Type} (n : Nat) (as bs : List α) : (as ++ bs.take n).take n = (as ++ bs).take n := by
  simp [List.take_append, List.take_take]

theorem edgeBits_append (s : State) {as : List Level} (bs : List Level) (h : as ≠ []) :
    s.edgeBits (as ++ bs) = s.edgeBits as ++ bs := by
  have : 0 < as.length := List.length_pos_of_ne_nil h
  exact List.drop_append_of_le_length (by split_ifs <;> omega)

theorem edgeBits_of_low {s : State} (h : s.clock = false) (bits : List Level) : s.edgeBits bits = bits := by
  simp [State.edgeBits, h]

theorem stagesAfter_append (s : State) {as : List Level} (bs : List Level) (h : as ≠ []) :
    s.stagesAfter (as ++ bs) = (bs.reverse ++ s.stagesAfter as).take s.sh.length := by
  unfold State.stagesAfter
  rw [take_append_take, edgeBits_append s bs h, List.reverse_append, List.append_assoc]

/-- Sending bits and then more of them is sending them all. -/
theorem sendBits_append (s : State) (as bs : List Level) : (s.sendBits as).sendBits bs = s.sendBits (as ++ bs) := by
  by_cases has : as = []
  · rw [has, sendBits_nil, List.nil_append]
  by_cases hbs : bs = []
  · rw [hbs, sendBits_nil, List.append_nil]
  have hlow : (s.sendBits as).clock = false := if_neg has
  have hstages : (s.sendBits as).stagesAfter bs = s.stagesAfter (as ++ bs) := by
    rw [stagesAfter_append s bs has, State.stagesAfter, edgeBits_of_low hlow]
    simp [State.sendBits, State.stagesAfter]
  rw [State.sendBits, hstages, edgeBits_of_low hlow]
  by_cases hopen : s.cfg.latchTransparent = true ∧ s.latch = true <;>
    simp [State.sendBits, edgeBits_append s bs has, has, hbs, hopen, Nat.mul_add, ← Option.getD_or]

/-! ### The turns of one byte -/

/-- The transmitted bits of a byte before bit `i`. -/
def bitsBefore (v : Byte) (i : Nat) : List Level := (List.range i).map (dataBit v)

theorem bitsBefore_zero (v : Byte) : bitsBefore v 0 = [] := rfl

theorem bitsBefore_succ (v : Byte) (i : Nat) : bitsBefore v (i + 1) = bitsBefore v i ++ [dataBit v i] := by
  simp [bitsBefore, List.range_succ]

theorem sentBits_singleton (v : Byte) : sentBits [v] = bitsBefore v 8 := rfl

/-- The writes of bit `i`, after those of the bits before it. -/
theorem bitWritten_sendBits (s : State) (v : Byte) (i : Nat) :
    bitWritten (dataBit v i) { s.sendBits (bitsBefore v i) with bitidx := i } =
      { s.sendBits (bitsBefore v (i + 1)) with bitidx := i, ph := .clkl } := by
  rw [bitWritten_eq_sendBits, bitsBefore_succ, ← sendBits_append]
  rfl

/-- `BITIDX` counts the bits sent so far. -/
theorem State.AtBit.after_sendBits {s : State} {v : Byte} (h : s.AtBit v 0) (i : Nat) :
    { s.sendBits (bitsBefore v i) with bitidx := i }.AtBit v i :=
  ⟨h.ph, h.byte, rfl, h.fault⟩

/-- The three turns of bit `i`, up to the advance of R214. -/
theorem State.AtBit.seqSteps_one {s : State} {v : Byte} (h : s.AtBit v 0) {i : Nat} (hok : s.okFor (3 * i + 3)) :
    seqSteps 3 { s.sendBits (bitsBefore v i) with bitidx := i } =
      .next (afterClkl { s.sendBits (bitsBefore v (i + 1)) with bitidx := i, ph := .clkl }) := by
  have hi := h.after_sendBits i
  have hok3 : { s.sendBits (bitsBefore v i) with bitidx := i }.okFor 3 :=
    hok.drop (by simp [State.sendBits, bitsBefore])
  rw [seqSteps_bit hi.ph hi.txBit hi.fault hok3, bitWritten_sendBits]

/-- The turns of the first `i` bits leave the sequencer at bit `i`. -/
theorem State.AtBit.seqSteps_bits {s : State} {v : Byte} (h : s.AtBit v 0) {i : Nat} (hi : i ≤ 7)
    (hok : s.okFor (3 * i)) :
    seqSteps (3 * i) s = .next { s.sendBits (bitsBefore v i) with bitidx := i } := by
  induction i with
  | zero =>
    have hnone : { s.sendBits (bitsBefore v 0) with bitidx := 0 } = s := by
      rw [bitsBefore_zero, sendBits_nil, ← h.bit]
    rw [hnone]
    rfl
  | succ i ih =>
    have hadvance : afterClkl { s.sendBits (bitsBefore v (i + 1)) with bitidx := i, ph := .clkl } =
        { s.sendBits (bitsBefore v (i + 1)) with bitidx := i + 1 } := by
      have hlt : i < 7 := hi
      simp [afterClkl, hlt, State.sendBits, h.ph]
    have hfirst := ih (by omega) (hok.mono (by omega))
    rw [Nat.mul_succ, seqSteps_add 3 hfirst, h.seqSteps_one hok, hadvance]

/-- The 24 turns of a byte, up to the advance after its last bit (R214). -/
theorem State.AtBit.seqSteps_byte {s : State} {v : Byte} (h : s.AtBit v 0) (hok : s.okFor 24) :
    seqSteps 24 s = .next (afterClkl { s.sendBits (sentBits [v]) with bitidx := 7, ph := .clkl }) := by
  have hseven := h.seqSteps_bits (i := 7) le_rfl (hok.mono (by omega))
  rw [seqSteps_add 3 hseven, h.seqSteps_one hok, sentBits_singleton]

/-! ### SHIFTBYTE -/

/-- What SHIFTBYTE leaves for the sequencer (R210). -/
def byteLoaded (v : Byte) (s : State) : State :=
  { s with txbuf := [v], byteidx := 0, bitidx := 0, ph := .sdat, oper := some .shiftByte, status := none }

theorem exec_shiftbyte_of_ready {s : State} (v : Byte) (hr : s.ready) :
    exec (.shiftbyte v) s = .next (byteLoaded v s) := by
  obtain ⟨hm, hp, hf⟩ := hr
  exact (whenIdle_of_idle s _ hm hp).trans (unlessPinFault_of_noPinFault s _ hf)

/-- After the last bit of its one byte a stand-alone SHIFTBYTE completes (R214). -/
theorem afterClkl_byteLoaded (v : Byte) (s : State) (bits : List Level) :
    afterClkl { (byteLoaded v s).sendBits bits with bitidx := 7, ph := .clkl } =
      complete { (byteLoaded v s).sendBits bits with bitidx := 0, byteidx := 1, ph := .clkl } := by
  simp [afterClkl, byteLoaded, State.sendBits]

/-- Whatever the level of CLOCK, an edge shifts in the last bits of a byte. -/
theorem edgeBits_sentBits_ne_nil (s : State) (v : Byte) : s.edgeBits (sentBits [v]) ≠ [] := by
  unfold State.edgeBits
  split_ifs <;> exact List.cons_ne_nil _ _

/-- The eight bits of a byte, written out. -/
theorem sendBits_byte (s : State) (v : Byte) :
    s.sendBits (sentBits [v]) = { s with
      data := v.getLsbD 0
      clock := false
      sh := s.stagesAfter (sentBits [v])
      out := if s.cfg.latchTransparent = true ∧ s.latch = true then s.stagesAfter (sentBits [v]) else s.out
      trace := s.trace ++ wireByte v
      pins := s.pins.drop 24 } := by
  simp only [State.sendBits, ne_eq, edgeBits_sentBits_ne_nil s v, not_false_eq_true, true_and]
  rfl

/-- Settles O13: the issue loads the byte, its 24 turns send the eight bits, and the operation completes. -/
theorem shiftbyteShiftsEightBits : Obligations.ShiftbyteShiftsEightBits := by
  intro s v hr hok
  refine ⟨byteLoaded v s, exec_shiftbyte_of_ready v hr, ?_⟩
  obtain ⟨hm, hp, hf⟩ := hr
  have hat : (byteLoaded v s).AtBit v 0 := ⟨rfl, rfl, rfl, hf⟩
  rw [hat.seqSteps_byte hok, afterClkl_byteLoaded, sendBits_byte]
  simp [complete, byteLoaded, State.stagesAfter, State.edgeBits, hm, hp]

end Sys2Proof.Machine
end

section
/-! The outputs inside a transaction (R143, R151, R152): they take the stages at the commit and change at no other
turn. -/

namespace Sys2Proof.Machine

@[simp] theorem afterClkl_out (s : State) : (afterClkl s).out = s.out := by unfold afterClkl; split_ifs <;> rfl

/-- A pin write of a TRANSMIT or a RUN, whatever level `x` it leaves: LATCH is low at every edge of CLOCK and high
before the LATL, so the outputs move at the LATH alone (R143). -/
theorem PinPhase.out {s : State} {p : Line} {l : Level} (h : PinPhase s p l) (hi : s.Inv)
    (ho : s.oper ≠ some .shiftByte) (x : Level) :
    (drive p x (s.attempt p l)).out = s.out ∨ (s.ph = .lath ∧ (drive p x (s.attempt p l)).out = s.sh) := by
  cases h with
  | latl hp => exact .inl (by simp [drive_latch_out, hi.latchStart hp])
  | sdat b hp => exact .inl rfl
  | clkh hp | clkl hp => exact .inl (by simp [drive_clock_out, hi.latchLow ho (by simp [hp])])
  | lath hp =>
    cases x with
    | false => exact .inl (by simp [drive_latch_out])
    | true => exact .inr ⟨hp, by simp [drive_latch_out, hi.latchLow ho (by simp [hp])]⟩

/-- The block's turn inside a TRANSMIT or a RUN leaves the outputs alone or commits the stages (R143). -/
theorem BlockStep.out {s t : State} (h : BlockStep s t) (hi : s.Inv) (ho : s.oper ≠ some .shiftByte) :
    t.out = s.out ∨ (s.ph = .lath ∧ t.out = s.sh) := by
  cases h with
  | idle | hold | pollStop | pollGo | fetchBad | fetchGo | advance => exact .inl rfl
  | pinFail p l x hpin => exact hpin.out hi ho x
  | latl hp => exact (PinPhase.latl hp).out hi ho false
  | sdat b hp _ hb => exact (PinPhase.sdat b hp hb).out hi ho b
  | clkh hp => exact (PinPhase.clkh hp).out hi ho true
  | clkl hp => simpa using (PinPhase.clkl hp).out hi ho false
  | lathHold hp | lathDone hp => exact (PinPhase.lath hp).out hi ho true

/-- A turn of the caller or of the time source moves no output (R23). -/
theorem CallerStep.out {s t : State} {a : Act} (h : CallerStep s a t) : t.out = s.out := by
  cases h <;> rfl

/-- Settles O55, from what each turn of the block does to the outputs. -/
theorem outputsChangeOnlyAtTheCommit : Obligations.OutputsChangeOnlyAtTheCommit :=
  fun _ _ hi ho h => (seqStep_cases h).out hi ho

end Sys2Proof.Machine
end

section
/-! What the chain shows after the commit of a slot (R153, R155, R156). -/

namespace Sys2Proof.Machine

/-! ### Where the sent bits stand -/

@[simp] theorem sentBits_length (bs : List Byte) : (sentBits bs).length = 8 * bs.length := by
  simp [sentBits, List.length_flatMap, Nat.mul_comm]

/-- Newest bit first, bit `b` of byte `j` is in place `b` of register `L-1-j` (R153, R68). -/
theorem reverse_sentBits_getElem? (bs : List Byte) {j b : Nat} (hj : j < bs.length) (hb : b < 8) :
    (sentBits bs).reverse[8 * (bs.length - 1 - j) + b]? = (bs[j]?).map fun v => v.getLsbD b := by
  have hwire : 8 * bs.length - 1 - (8 * (bs.length - 1 - j) + b) = 8 * j + (7 - b) := by omega
  have hbit : 7 - (7 - b) = b := by omega
  rw [List.getElem?_reverse (by simp; omega), sentBits_length, hwire, sentBits_getElem? _ _ _ (by omega)]
  simp only [dataBit, hbit]

/-! ### The wiring: which byte of a slot a register holds -/

/-- The place of the segment byte in the scanner's sequence (R96). -/
def segPlace (c : Config) : Nat := if c.segFirst = true then 0 else c.m

/-- The place of select byte `i` in the scanner's sequence (R96). -/
def selPlace (c : Config) (i : Nat) : Nat := if c.segFirst = true then i + 1 else i

theorem slotSeq_segPlace {c : Config} {mask : List Byte} (q : Byte) (hm : mask.length = c.m) :
    (slotSeq c q mask)[segPlace c]? = some q := by
  cases hf : c.segFirst <;> simp [slotSeq, segPlace, hf, hm]

theorem slotSeq_selPlace {c : Config} {mask : List Byte} (q : Byte) {i : Nat} (hi : i < mask.length) :
    (slotSeq c q mask)[selPlace c i]? = mask[i]? := by
  cases hf : c.segFirst <;> simp [slotSeq, selPlace, hf, List.getElem?_append_left, hi]

/-- The segment register is where the segment byte ends up (R153, R155). -/
theorem segReg_eq (c : Config) : segReg c = c.k - 1 - segPlace c := by
  cases hf : c.segFirst <;> simp [segReg, segPlace, Config.k, hf]

/-- The register of select byte `i` is where that byte ends up (R153, R155). -/
theorem maskReg_eq (c : Config) (i : Nat) : maskReg c i = c.k - 1 - selPlace c i := by
  cases hf : c.segFirst <;> simp [maskReg, selPlace, Config.k, hf]
  omega

/-! ### The outputs after a commit -/

/-- The outputs show the transaction of segment byte `q` and the select bytes of position `i` (R153, R194). -/
structure State.ShowsSlot (t : State) (q : Byte) (i : Nat) : Prop where
  cfgWf : configWf t.cfg = true
  posLt : i < t.cfg.n
  out : t.out = (sentBits (slotSeq t.cfg q (maskOf t.cfg i))).reverse

section
variable {t : State} {q : Byte} {i : Nat}

theorem State.ShowsSlot.out_getD (h : t.ShowsSlot q i) {j b : Nat} (hj : j < t.cfg.k) (hb : b < 8) :
    t.out.getD (8 * (t.cfg.k - 1 - j) + b) false =
      (((slotSeq t.cfg q (maskOf t.cfg i))[j]?).map fun v => v.getLsbD b).getD false := by
  have hlen : (slotSeq t.cfg q (maskOf t.cfg i)).length = t.cfg.k := by simp [maskOf_length h.cfgWf h.posLt, Config.k]
  rw [h.out, List.getD_eq_getElem?_getD, ← reverse_sentBits_getElem? _ (hlen ▸ hj) hb, hlen]

/-- The segment outputs show the segment byte (R155). -/
theorem State.ShowsSlot.segOut_eq (h : t.ShowsSlot q i) {b : Nat} (hb : b < 8) : segOut t b = q.getLsbD b := by
  have hplace : segPlace t.cfg < t.cfg.k := by unfold segPlace Config.k; split_ifs <;> omega
  rw [segOut, segReg_eq, h.out_getD hplace hb, slotSeq_segPlace q (maskOf_length h.cfgWf h.posLt)]
  rfl

/-- The select field shows the select bytes (R97, R155). -/
theorem State.ShowsSlot.selField_eq (h : t.ShowsSlot q i) {f : Nat} (hf : f < 8 * t.cfg.m) :
    selField t f = fieldBit (maskOf t.cfg i) f := by
  have hplace : selPlace t.cfg (f / 8) < t.cfg.k := by unfold selPlace Config.k; split_ifs <;> omega
  have hbyte : f / 8 < (maskOf t.cfg i).length := by rw [maskOf_length h.cfgWf h.posLt]; omega
  rw [selField, maskReg_eq, h.out_getD hplace (Nat.mod_lt _ (by decide)), slotSeq_selPlace q hbyte]
  simp [fieldBit, hbyte]

theorem selLineOf_lt {c : Config} (hc : configWf c = true) {j : Nat} (hj : j < c.n) : selLineOf c j < 8 * c.m := by
  obtain ⟨-, -, -, -, -, -, hlen, hlt, -⟩ := (configWf_iff c).mp hc
  have hj' : j < c.selLine.length := hlen ▸ hj
  have hline : selLineOf c j = c.selLine[j] := by simp [selLineOf, hj']
  rw [hline]
  exact hlt _ (List.getElem_mem hj')

/-- The masks of a well-formed configuration select one position each (R156, R178). -/
theorem State.ShowsSlot.onlyActive (h : t.ShowsSlot q i) : onlyActive t i := by
  intro j hj
  obtain ⟨-, -, -, -, -, -, -, -, hmask⟩ := (configWf_iff t.cfg).mp h.cfgWf
  have hactive : active t j = maskActivates t.cfg i j := by
    rw [active, h.selField_eq (selLineOf_lt h.cfgWf hj), maskActivates]
  rw [hactive, hmask i h.posLt j hj, eq_comm]

end

/-- The common-anode pattern is the complement of the common-cathode one (R164). -/
theorem cathodePattern_of_segPattern {d : Int} {p : Polarity} {q : Byte} (h : segPattern d p = some q) :
    ∃ c, segPattern d .commonCathode = some c ∧ q = if p = .commonCathode then c else ~~~c := by
  cases p with
  | commonCathode => exact ⟨q, h, rfl⟩
  | commonAnode =>
    unfold segPattern at h ⊢
    split_ifs at h with hd
    cases h
    exact ⟨_, if_neg hd, rfl⟩

/-- A segment is on where the common-cathode pattern says so, whatever the polarity (R155, R164). -/
theorem segOn_eq_cathodePattern {t : State} {q c : Byte} {b : Nat} (hb : b < 8) (hq : segOut t b = q.getLsbD b)
    (hc : q = if t.cfg.polarity = .commonCathode then c else ~~~c) : segOn t b = c.getLsbD b := by
  unfold segOn
  cases hp : t.cfg.polarity <;> simp [hq, hc, hp, hb]

/-! ### The commit of a slot -/

/-- At the LATH phase of a slot the stages hold the slot's transaction and nothing else (R153). -/
theorem State.FullInv.sh_at_lath {s : State} (h : s.FullInv) (hm : s.mode = .scanning) (hp : s.ph = .lath) :
    s.sh = (sentBits s.txbuf).reverse := by
  obtain ⟨hbyte, hbit⟩ := h.shift.done (.inl hp)
  have hbits : s.bitsIn = s.sh.length := by
    simp [State.bitsIn, hp, hbyte, hbit, h.inv.shLen, h.inv.scanLen hm]
  have hsent : (sentBits s.txbuf).length = s.sh.length := by simp [h.inv.shLen, h.inv.scanLen hm, hp]
  have hhead := h.shift.head (by simp [hp])
  rw [hbits, List.take_length, ← hsent, List.take_length, ← List.length_reverse, List.take_length] at hhead
  exact hhead

/-- A turn that commits the stages in the LATH phase of a slot shows that slot (R156). -/
theorem State.FullInv.showsSlot {s t : State} (h : s.FullInv) (hm : s.mode = .scanning) (hp : s.ph = .lath)
    (hcfg : t.cfg = s.cfg) (hout : t.out = s.sh) :
    ∃ d q, segPattern d s.cfg.polarity = some q ∧ s.txbuf = slotSeq s.cfg q (maskOf s.cfg s.pos) ∧
      t.ShowsSlot q s.pos := by
  obtain ⟨d, q, -, -, hq, htx⟩ := h.slot hm (by simp [hp]) (by simp [hp])
  refine ⟨d, q, hq, htx, ⟨hcfg ▸ h.inv.cfgWf, hcfg ▸ h.inv.posLt, ?_⟩⟩
  rw [hout, h.sh_at_lath hm hp, htx, hcfg]

/-- What is active depends on the wiring and the outputs alone (R155). -/
theorem oneActive_congr {s t : State} (hcfg : t.cfg = s.cfg) (hout : t.out = s.out) (h : oneActive s) :
    oneActive t := by
  simpa only [oneActive, Machine.onlyActive, active, selField, hcfg, hout] using h

/-- The block's turn while scanning keeps exactly one position active: it leaves the outputs alone, or commits the
transaction of a slot. -/
theorem BlockStep.oneActive {s t : State} (hb : BlockStep s t) (h : s.FullInv) (hm : s.mode = .scanning)
    (ha : oneActive s) : oneActive t := by
  obtain ⟨hcfg, -⟩ := hb.keeps
  obtain hout | ⟨hp, hout⟩ := hb.out h.inv (by simp [h.inv.scanIffRun.mp hm])
  · exact oneActive_congr hcfg hout ha
  · obtain ⟨_, _, -, -, hshows⟩ := h.showsSlot hm hp hcfg hout
    exact ⟨s.pos, hshows.posLt, hshows.onlyActive⟩

theorem State.FullInv.with_sched {s : State} (h : s.FullInv) (rest : List Act) : { s with sched := rest }.FullInv :=
  ⟨{ h.inv with }, { h.shift with }, h.slot⟩

/-- Settles O58, from whose turn the step is. -/
theorem exactlyOnePositionStaysActive : Obligations.ExactlyOnePositionStaysActive := by
  intro s t h hm ha hstep
  obtain ⟨rest, hb⟩ | ⟨a, rest, -, hc⟩ := step_agent hstep
  · exact hb.oneActive (h.with_sched rest) hm ha
  · exact oneActive_congr hc.keeps.1 hc.out ha

/-- The LATH turn of a slot commits the stages, unless it raises a pin fault (R151, R215). -/
theorem seqStep_lath_commits {s t : State} (hi : s.Inv) (hm : s.mode = .scanning) (hp : s.ph = .lath)
    (h : seqStep s = .next t) (hf : t.fault ≠ some .pinFault) : t.out = s.sh ∧ t.txbuf = s.txbuf := by
  have hlow := hi.latchLow (hi.latchPhases (.inr hp)) (by simp [hp])
  rw [seqStep_lath (f := exec .wait) hp fun u hu => by simp [afterLath, hu, hm]] at h
  obtain ⟨u, hu, ⟨hpf, rfl⟩ | ⟨hok, hw⟩⟩ := proceed_next h
  · exact absurd hpf hf
  obtain ⟨-, rfl | ⟨x, rfl⟩⟩ := pinOp_next hu
  · cases hw
    simp [drive_latch_out, hlow]
  · simp at hok

/-- Settles O57: the commit shows the slot of the scanner's transaction. -/
theorem commitShowsThePositionOfTheSlot : Obligations.CommitShowsThePositionOfTheSlot := by
  intro s t h hm hp hstep hf
  obtain ⟨hout, htx⟩ := seqStep_lath_commits h.inv hm hp hstep hf
  have hb := seqStep_cases hstep
  obtain ⟨hcfg, -⟩ := hb.keeps
  have hpos : t.pos = s.pos := hb.pos.resolve_right (by simp [hp])
  obtain ⟨d, q, hq, hseq, hshows⟩ := h.showsSlot hm hp hcfg hout
  obtain ⟨h0, h9⟩ := (segPattern_isSome_iff d s.cfg.polarity).mp (by simp [hq])
  obtain ⟨c, hc, hqc⟩ := cathodePattern_of_segPattern hq
  refine ⟨hpos, htx, hshows.onlyActive, d, q, c, h0, h9, ?place, hq, hc, fun b hb8 => ?display⟩
  case place =>
    rw [hseq]
    exact slotSeq_segPlace q (maskOf_length h.inv.cfgWf h.inv.posLt)
  case display =>
    have hseg := hshows.segOut_eq hb8
    have hon := segOn_eq_cathodePattern hb8 hseg (by rw [hcfg]; exact hqc)
    refine ⟨hseg, fun hpol => ?_, fun hpol => ?_, hon, fun j hj => ?_⟩
    · simp [segOn, hcfg, hpol]
    · simp [segOn, hcfg, hpol]
    · rw [lit, Bool.and_eq_true, hon, hshows.onlyActive j (hcfg ▸ hj)]

end Sys2Proof.Machine
end

section
/-! The whole effect of a TRANSMIT (R141, R213 to R215, R266). -/

namespace Sys2Proof.Machine

/-! ### The turns of a transaction's bytes -/

/-- The sequencer stands before byte `j` of `TXBUF`, and before the commit when there is no such byte (R213, R214). -/
def State.atByte (s : State) (j : Nat) : State :=
  { s with byteidx := j, bitidx := 0, ph := if j < s.txbuf.length then .sdat else .lath }

/-- A transaction starts before its first byte (R213). -/
theorem afterLatl_eq_atByte {s : State} (hbyte : s.byteidx = 0) (hbit : s.bitidx = 0) : afterLatl s = s.atByte 0 := by
  simp [afterLatl, State.atByte, hbyte, hbit]

/-- Only a SHIFTBYTE ends with its bytes: any other transaction goes on to the next byte or the commit (R214). -/
theorem afterClkl_eq_atByte {s : State} (ho : s.oper = some .transmit ∨ s.oper = some .run) (hbit : s.bitidx = 7) :
    afterClkl s = s.atByte (s.byteidx + 1) := by
  by_cases hnext : s.byteidx + 1 < s.txbuf.length <;> simp [afterClkl, State.atByte, hbit, hnext, ho]

theorem sentBits_append (as bs : List Byte) : sentBits (as ++ bs) = sentBits as ++ sentBits bs :=
  List.flatMap_append

section
variable {s : State} {j : Nat}

theorem State.atBit_atByte {v : Byte} (hv : s.txbuf[j]? = some v) (hf : s.fault ≠ some .pinFault) :
    (s.atByte j).AtBit v 0 := by
  obtain ⟨hj, -⟩ := List.getElem?_eq_some_iff.mp hv
  exact ⟨if_pos hj, hv, rfl, hf⟩

/-- The 24 turns of byte `j` (R93, R94, R214). -/
theorem seqSteps_atByte {v : Byte} (hv : s.txbuf[j]? = some v) (hf : s.fault ≠ some .pinFault)
    (ho : s.oper = some .transmit ∨ s.oper = some .run) (hok : s.okFor 24) :
    seqSteps 24 (s.atByte j) = .next ((s.sendBits (sentBits [v])).atByte (j + 1)) := by
  rw [(State.atBit_atByte hv hf).seqSteps_byte hok, afterClkl_eq_atByte (by exact ho) rfl]
  rfl

/-- The turns of the first `j` bytes of `TXBUF` send their bits. -/
theorem seqSteps_bytes (hf : s.fault ≠ some .pinFault) (ho : s.oper = some .transmit ∨ s.oper = some .run)
    (hj : j ≤ s.txbuf.length) (hok : s.okFor (24 * j)) :
    seqSteps (24 * j) (s.atByte 0) = .next ((s.sendBits (sentBits (s.txbuf.take j))).atByte j) := by
  induction j with
  | zero => simp [seqSteps, sentBits, sendBits_nil]
  | succ j ih =>
    have hfirst := ih (by omega) (hok.mono (by omega))
    have hv : s.txbuf[j]? = some s.txbuf[j] := List.getElem?_eq_getElem hj
    have hpins : (s.sendBits (sentBits (s.txbuf.take j))).pins = s.pins.drop (24 * j) := by
      have hlen : min j s.txbuf.length = j := by omega
      simp [State.sendBits, hlen, ← Nat.mul_assoc]
    have hone := seqSteps_atByte (s := s.sendBits (sentBits (s.txbuf.take j))) hv hf ho (hok.drop hpins)
    rw [Nat.mul_succ, seqSteps_add 24 hfirst, hone, sendBits_append, ← sentBits_append,
      List.take_append_getElem hj]

end

/-! ### The whole transaction -/

/-- What TRANSMIT leaves for the sequencer (R210). -/
def transmitLoaded (len : Nat) (s : State) : State :=
  { s with
    txbuf := txseqBytes s.txseq s.draws len, draws := s.draws + 1, byteidx := 0, bitidx := 0, ph := .latl
    oper := some .transmit, status := none }

theorem exec_transmit_of_ready {s : State} (len : Nat) (hr : s.ready) :
    exec (.transmit len) s = .next (transmitLoaded len s) := by
  obtain ⟨hm, hp, hf⟩ := hr
  exact (whenIdle_of_idle s _ hm hp).trans (unlessPinFault_of_noPinFault s _ hf)

theorem seqStep_latl_of_ok {s : State} (hp : s.ph = .latl) (hf : s.fault ≠ some .pinFault) (ha : s.pinAnswer = .ok) :
    seqStep s = .next (afterLatl (pinDone .latch false s)) := by
  simp only [seqStep, hp]
  exact proceed_pinOp_of_ok _ hf ha

theorem seqStep_lath_of_ok {s : State} (hp : s.ph = .lath) (hm : s.mode = .stopped) (hf : s.fault ≠ some .pinFault)
    (ha : s.pinAnswer = .ok) : seqStep s = .next (complete (pinDone .latch true s)) := by
  rw [seqStep_lath (f := fun t => .next (complete t)) hp fun t ht => by simp [afterLath, ht, hm]]
  exact proceed_pinOp_of_ok _ hf ha

/-- LATCH is low, the bytes of `TXBUF` are sent, and the commit is next (R141). -/
def State.bytesSent (s : State) : State :=
  ((pinDone .latch false s).sendBits (sentBits s.txbuf)).atByte s.txbuf.length

section
variable (s : State)

@[simp] theorem State.bytesSent_ph : s.bytesSent.ph = .lath := by simp [State.bytesSent, State.atByte, State.sendBits]
@[simp] theorem State.bytesSent_mode : s.bytesSent.mode = s.mode := by
  simp [State.bytesSent, State.atByte, State.sendBits]
@[simp] theorem State.bytesSent_fault : s.bytesSent.fault = s.fault := by
  simp [State.bytesSent, State.atByte, State.sendBits]
@[simp] theorem State.bytesSent_pins : s.bytesSent.pins = s.pins.tail.drop (24 * s.txbuf.length) := by
  simp [State.bytesSent, State.atByte, State.sendBits, ← Nat.mul_assoc]

end

/-- The turns of a stand-alone transaction: LATL, the bytes, LATH (R141). -/
theorem seqSteps_transaction {s : State} (hp : s.ph = .latl) (hm : s.mode = .stopped) (hf : s.fault ≠ some .pinFault)
    (ho : s.oper = some .transmit) (hbyte : s.byteidx = 0) (hbit : s.bitidx = 0)
    (hok : s.okFor (24 * s.txbuf.length + 2)) :
    seqSteps (24 * s.txbuf.length + 2) s = .next (complete (pinDone .latch true s.bytesSent)) := by
  have hok' : (pinDone .latch false s).okFor (24 * s.txbuf.length + 1) := hok.tail (by simp)
  have hlatl : seqStep s = .next ((pinDone .latch false s).atByte 0) := by
    rw [seqStep_latl_of_ok hp hf hok.pinAnswer, afterLatl_eq_atByte (by simpa using hbyte) (by simpa using hbit)]
  have hbytes : seqSteps (24 * s.txbuf.length) ((pinDone .latch false s).atByte 0) = .next s.bytesSent := by
    rw [seqSteps_bytes (by simpa using hf) (.inl (by simpa using ho)) (by simp) (hok'.mono (by omega))]
    simp [State.bytesSent]
  have hlast : s.bytesSent.okFor 1 := hok'.drop (by simp)
  have hlath := seqStep_lath_of_ok s.bytesSent_ph (by simpa using hm) (by simpa using hf) hlast.pinAnswer
  rw [seqSteps_succ _ hlatl, seqSteps_add 1 hbytes, seqSteps_succ 0 hlath]
  rfl

/-- The bits on the wire are the bytes on the wire (R93, R94). -/
theorem sentBits_flatMap_wireBit (bs : List Byte) : (sentBits bs).flatMap wireBit = bs.flatMap wireByte := by
  simp only [sentBits, List.flatMap_assoc, List.flatMap_map]
  rfl

/-- The state a fault-free TRANSMIT of `len` bytes leaves. -/
def transmitted (len : Nat) (s : State) : State :=
  let bs := txseqBytes s.txseq s.draws len
  { s with
    data := ((sentBits bs).getLast?).getD s.data
    clock := if len = 0 then s.clock else false
    latch := true
    sh := s.stagesAfter (sentBits bs)
    out := s.stagesAfter (sentBits bs)
    txbuf := bs
    byteidx := len
    bitidx := 0
    oper := none
    status := some .ok
    trace := s.trace ++ wireTransmit bs
    pins := s.pins.drop (24 * len + 2)
    draws := s.draws + 1 }

theorem seqSteps_transmitLoaded {s : State} {len : Nat} (hr : s.ready) (hok : s.okFor (24 * len + 2)) :
    seqSteps (24 * len + 2) (transmitLoaded len s) = .next (transmitted len s) := by
  obtain ⟨hm, hp, hf⟩ := hr
  have hlen : (transmitLoaded len s).txbuf.length = len := txseqBytes_length _ _ _
  have h := seqSteps_transaction (s := transmitLoaded len s) rfl hm hf rfl rfl rfl (by rw [hlen]; exact hok)
  rw [hlen] at h
  rw [h]
  have hnil : sentBits (txseqBytes s.txseq s.draws len) = [] ↔ len = 0 := by simp [← List.length_eq_zero_iff]
  simp [transmitted, transmitLoaded, complete, drive_latch_eq, State.attempt, State.bytesSent, State.atByte,
    State.sendBits, State.stagesAfter, State.edgeBits, sentBits_flatMap_wireBit, wireTransmit, hnil, hm, hp,
    ← Nat.mul_assoc]

/-- Settles O15: the issue loads the bytes, and the turns send them between the two writes of LATCH. -/
theorem transmitSendsTheBytesAndCommits : Obligations.TransmitSendsTheBytesAndCommits := by
  rintro s len _ hr hok rfl
  exact ⟨_, exec_transmit_of_ready len hr, seqSteps_transmitLoaded hr hok⟩

end Sys2Proof.Machine
end

section
/-! What follows from the whole effect of a TRANSMIT: where every bit ends up (R153, R154), that a second transmit of
the same bytes shows the same (R146), and the events of the transaction (R142, R112). -/

namespace Sys2Proof.Machine

/-! ### The stages after the bits of a byte list -/

section
variable {s : State} {bs : List Byte} {len : Nat}

/-- Bit `b` of byte `j` ends in stage `8*(L-1-j)+b` if the chain has it (R154). -/
theorem stagesAfter_sentBits_getElem? (hc : s.clock = false) (hlen : bs.length = len) {j b : Nat} (hj : j < len)
    (hb : b < 8) (hstage : 8 * (len - 1 - j) + b < s.sh.length) :
    (s.stagesAfter (sentBits bs))[8 * (len - 1 - j) + b]? = (bs[j]?).map fun v => v.getLsbD b := by
  subst hlen
  rw [State.stagesAfter, edgeBits_of_low hc, List.getElem?_take_of_lt hstage,
    List.getElem?_append_left (by simp; omega), reverse_sentBits_getElem? bs hj hb]

/-- An old bit moves up by the bits sent if the chain has that stage (R154). -/
theorem stagesAfter_old_getElem? (hc : s.clock = false) (hlen : bs.length = len) {i : Nat}
    (hstage : i + 8 * len < s.sh.length) : (s.stagesAfter (sentBits bs))[i + 8 * len]? = s.sh[i]? := by
  rw [State.stagesAfter, edgeBits_of_low hc, List.getElem?_take_of_lt hstage,
    List.getElem?_append_right (by simp [hlen])]
  simp [hlen]

@[simp] theorem stagesAfter_length (s : State) (bits : List Level) : (s.stagesAfter bits).length = s.sh.length := by
  simp [State.stagesAfter]

end

/-! ### Where the bits of a TRANSMIT end up -/

/-- The turns of an issued TRANSMIT leave `transmitted` and no other state. -/
theorem eq_transmitted {s t u : State} {len : Nat} (hr : s.ready) (hok : s.okFor (24 * len + 2))
    (ht : exec (.transmit len) s = .next t) (hu : seqSteps (24 * len + 2) t = .next u) : u = transmitted len s := by
  rw [exec_transmit_of_ready len hr] at ht
  cases ht
  rw [seqSteps_transmitLoaded hr hok] at hu
  cases hu
  rfl

theorem transmitted_sh_getElem? {s : State} {len j b : Nat} (hc : s.clock = false) (hj : j < len) (hb : b < 8)
    (hstage : 8 * (len - 1 - j) + b < s.sh.length) :
    ∃ v, (transmitted len s).txbuf[j]? = some v ∧
      (transmitted len s).sh[8 * (len - 1 - j) + b]? = some (v.getLsbD b) := by
  have hv : (transmitted len s).txbuf[j]? = some (txseqByte s.txseq s.draws j) := by
    simp [transmitted, txseqBytes, hj]
  have hbit := stagesAfter_sentBits_getElem? hc (txseqBytes_length s.txseq s.draws len) hj hb hstage
  exact ⟨_, hv, hbit.trans (congrArg (Option.map _) hv)⟩

/-- As many bytes as the chain holds leave nothing of the old content (R153). -/
theorem transmitted_sh_full {s : State} {len : Nat} (hc : s.clock = false) (hlen : s.sh.length = 8 * len) :
    (transmitted len s).sh = (sentBits (transmitted len s).txbuf).reverse := by
  change s.stagesAfter (sentBits (txseqBytes s.txseq s.draws len)) = _
  rw [State.stagesAfter, edgeBits_of_low hc]
  exact List.take_left' (by simp [hlen])

/-- Settles O17: the new bits are in the lowest stages, the old ones above them. -/
theorem wrongLengthTransmitMovesTheOldBits : Obligations.WrongLengthTransmitMovesTheOldBits := by
  intro s t u len hi hr hok ht hu
  obtain rfl := eq_transmitted hr hok ht hu
  obtain ⟨hc, -⟩ := hi.ready_bus hr
  exact ⟨rfl, stagesAfter_length _ _, rfl, fun j b hj hb => transmitted_sh_getElem? hc hj hb,
    fun i => stagesAfter_old_getElem? hc (txseqBytes_length _ _ _)⟩

/-- Settles O16: the stages hold the bytes, and `OUT` the stages. -/
theorem firstByteEndsFarthest : Obligations.FirstByteEndsFarthest := by
  intro s t u hi hr hok ht hu j b hj hb
  obtain rfl := eq_transmitted hr hok ht hu
  obtain ⟨hc, -⟩ := hi.ready_bus hr
  have hstage : 8 * (s.cfg.k - 1 - j) + b < s.sh.length := by rw [hi.shLen]; omega
  obtain ⟨v, hv, hsh⟩ := transmitted_sh_getElem? hc hj hb hstage
  exact ⟨v, hv, hsh, hsh⟩

/-- Where the caller has supplied every byte, none is the free value of log 9. -/
theorem txseqBytes_of_supplied {bs : List Byte} {len : Nat} (h : len ≤ bs.length) (draw : Nat) :
    txseqBytes bs draw len = bs.take len := by
  apply List.ext_getElem?
  intro i
  by_cases hi : i < len
  · have hi' : i < bs.length := by omega
    simp [txseqBytes, txseqByte, hi, hi']
  · simp [txseqBytes, hi]

/-- Two transmits of the same bytes, each as long as the chain, leave the same stages (R146, from R153). -/
theorem transmitted_transmitted {s : State} {len : Nat} (hc : s.clock = false) (hlen : s.sh.length = 8 * len)
    (hsup : len ≤ s.txseq.length) :
    (transmitted len (transmitted len s)).sh = (transmitted len s).sh ∧
      (transmitted len (transmitted len s)).txbuf = (transmitted len s).txbuf := by
  have hbytes : (transmitted len (transmitted len s)).txbuf = (transmitted len s).txbuf :=
    (txseqBytes_of_supplied hsup _).trans (txseqBytes_of_supplied hsup _).symm
  have hc' : (transmitted len s).clock = false := by simp [transmitted, hc]
  have hlen' : (transmitted len s).sh.length = 8 * len := by simp [transmitted, hlen]
  exact ⟨by rw [transmitted_sh_full hc' hlen', hbytes, transmitted_sh_full hc hlen], hbytes⟩

/-- Settles O18: a TRANSMIT leaves the block ready for the second, which takes the same bytes. -/
theorem secondTransmitChangesNoOutput : Obligations.SecondTransmitChangesNoOutput := by
  intro s t u t' u' hi hr hsup hok ht hu ht' hu'
  obtain rfl := eq_transmitted hr (hok.mono (by omega)) ht hu
  have hr' : (transmitted s.cfg.k s).ready := hr
  have hok' : (transmitted s.cfg.k s).okFor (24 * s.cfg.k + 2) :=
    State.okFor.drop (m := 24 * s.cfg.k + 2) (by rwa [← Nat.two_mul]) rfl
  obtain rfl := eq_transmitted hr' hok' ht' hu'
  obtain ⟨hsh, hbytes⟩ := transmitted_transmitted (hi.ready_bus hr).1 hi.shLen hsup
  exact ⟨hsh, hsh, hbytes⟩

/-! ### The events of a transaction -/

/-- Between the two writes of LATCH there are writes of DATA and CLOCK alone (R142). -/
theorem data_or_clock_of_mem_wireBytes {bs : List Byte} {e : Event} (h : e ∈ bs.flatMap wireByte) :
    ∃ l, e = .w .data l ∨ e = .w .clock l := by
  rw [← sentBits_flatMap_wireBit, List.mem_flatMap] at h
  obtain ⟨b, -, he⟩ := h
  simp only [wireBit, List.mem_cons, List.not_mem_nil, or_false] at he
  obtain rfl | rfl | rfl := he
  · exact ⟨b, .inl rfl⟩
  · exact ⟨true, .inr rfl⟩
  · exact ⟨false, .inr rfl⟩

theorem count_latch_wireBytes (bs : List Byte) (l : Level) : (bs.flatMap wireByte).count (.w .latch l) = 0 := by
  rw [List.count_eq_zero]
  intro h
  obtain ⟨x, he | he⟩ := data_or_clock_of_mem_wireBytes h <;> cases he

theorem count_clock_wireBit (b l : Level) : (wireBit b).count (.w .clock l) = 1 := by
  cases l <;> simp [wireBit]

/-- Every bit raises and lowers CLOCK once (R93). -/
theorem count_clock_wireBytes (bs : List Byte) (l : Level) :
    (bs.flatMap wireByte).count (.w .clock l) = 8 * bs.length := by
  rw [← sentBits_flatMap_wireBit, List.count_flatMap, ← sentBits_length]
  simp [Function.comp_def, count_clock_wireBit]

@[simp] theorem wireByte_length (v : Byte) : (wireByte v).length = 24 := rfl

/-- Settles O19: the events are those of one transaction on the wire. -/
theorem transactionHasOneLatchPulse : Obligations.TransactionHasOneLatchPulse := by
  intro s len hr hok
  refine ⟨_, _, wireTransmit (txseqBytes s.txseq s.draws len), (txseqBytes s.txseq s.draws len).flatMap wireByte,
    exec_transmit_of_ready len hr, seqSteps_transmitLoaded hr hok, rfl, ?_, rfl,
    fun e => data_or_clock_of_mem_wireBytes, ?_, ?_, ?_, ?_⟩
  · simp [wireTransmit, List.length_flatMap, Nat.mul_comm]
  all_goals simp [wireTransmit, count_latch_wireBytes, count_clock_wireBytes]

end Sys2Proof.Machine
end

section
/-! ENCODE: the two segment tables (R161, R164) and the operation's whole effect (R165, R166). -/

namespace Sys2Proof.Machine

/-! ### The two tables -/

/-- The common-cathode pattern is the entry of `SEGTAB`, where there is one (R161, R165). -/
theorem segPattern_commonCathode {d : Int} (h0 : 0 ≤ d) : segPattern d .commonCathode = segtab[d.toNat]? := by
  have hlen : segtab.length = 10 := rfl
  by_cases hd : 9 < d
  · rw [(segPattern_eq_none_iff d .commonCathode).mpr (.inr hd), List.getElem?_eq_none (by omega)]
  · have hlt : d.toNat < segtab.length := by omega
    rw [segPattern, if_neg (by omega)]
    simp [hlt]

theorem mem_segtab_of_segPattern {d : Int} {c : Byte} (h : segPattern d .commonCathode = some c) : c ∈ segtab := by
  obtain ⟨h0, -⟩ := (segPattern_isSome_iff d .commonCathode).mp (by simp [h])
  rw [segPattern_commonCathode h0] at h
  exact List.mem_of_getElem? h

/-- Only the seven segments are in the table: bit 7 of every entry is 0 (R161). -/
theorem getLsbD_seven_of_mem_segtab : ∀ c ∈ segtab, c.getLsbD 7 = false := by decide

/-- The common-anode table is the complement of the common-cathode one (R164). -/
theorem segPattern_commonAnode (d : Int) :
    segPattern d .commonAnode = (segPattern d .commonCathode).map fun c => ~~~c := by
  unfold segPattern
  split_ifs <;> rfl

/-- Settles O22: the entries are evaluated, and bit 7 is that of a member of `SEGTAB`. -/
theorem cathodeTableEntries : Obligations.CathodeTableEntries := by
  refine ⟨rfl, rfl, rfl, rfl, rfl, rfl, rfl, rfl, rfl, rfl, fun d q hq => ?_⟩
  exact getLsbD_seven_of_mem_segtab q (mem_segtab_of_segPattern hq)

/-- Settles O23: the anode pattern is the cathode one under the complement, which sets the clear bit 7. -/
theorem anodeIsTheComplementOverEightBits : Obligations.AnodeIsTheComplementOverEightBits := by
  refine ⟨rfl, fun d => ⟨fun c hc => ?complement, fun hnone => ?nonDigit⟩⟩
  case complement =>
    have h7 := getLsbD_seven_of_mem_segtab c (mem_segtab_of_segPattern hc)
    have hbits (b : Nat) (hb : b < 8) : (~~~c).getLsbD b = !c.getLsbD b := by simp [hb]
    exact ⟨~~~c, by rw [segPattern_commonAnode, hc]; rfl, (BitVec.allOnes_sub_eq_not c).symm,
      BitVec.xor_allOnes.symm, hbits, by rw [hbits 7 (by decide), h7]; rfl⟩
  case nonDigit => rw [segPattern_commonAnode, hnone]; rfl

/-! ### The operation -/

/-- ENCODE of a digit that has a pattern leaves it in `RES` (R165, R32). -/
theorem exec_encode_of_pattern {s : State} {d : Int} {p : Polarity} {q : Byte} (hm : s.mode = .stopped)
    (hp : s.ph = .idle) (hq : segPattern d p = some q) :
    exec (.encode d p) s = .next { s with res := [q], fault := clearedFault s.fault, status := some .ok } := by
  refine (whenIdle_of_idle s _ hm hp).trans ?_
  rw [hq]

/-- A stopped block that takes a fault has no mode and no phase to leave (R240). -/
theorem raise_of_idle {s : State} (k : FaultKind) (hm : s.mode = .stopped) (hp : s.ph = .idle) :
    raise k s = { s with
      trace := s.trace ++ [.fault k], fault := raisedFault k s.fault, oper := none, status := some (.err k) } := by
  simp [raise, hm, hp]

/-- ENCODE of a digit without a pattern takes InvalidDigit after its clearing of `FAULT` (R166, R240). -/
theorem exec_encode_of_noPattern {s : State} {d : Int} {p : Polarity} (hm : s.mode = .stopped) (hp : s.ph = .idle)
    (hq : segPattern d p = none) :
    exec (.encode d p) s = .next { s with
      trace := s.trace ++ [.fault .invalidDigit]
      fault := raisedFault .invalidDigit (clearedFault s.fault)
      oper := none
      status := some (.err .invalidDigit) } := by
  refine (whenIdle_of_idle s _ hm hp).trans ?_
  rw [hq]
  exact congrArg Host.Outcome.next (raise_of_idle _ hm hp)

/-- Without a PinFault the clearing and the new fault leave the new fault (R32). -/
theorem raisedFault_clearedFault {f : Option FaultKind} (k : FaultKind) (hf : f ≠ some .pinFault) :
    raisedFault k (clearedFault f) = some k := by
  simp [raisedFault, clearedFault, hf]

/-- Settles O24: a digit indexes `SEGTAB`, and either polarity's pattern is made of that entry. -/
theorem encodeReturnsTheTableByte : Obligations.EncodeReturnsTheTableByte := by
  intro s d p hm hp h0 h9
  obtain ⟨c, hc⟩ := Option.isSome_iff_exists.mp ((segPattern_isSome_iff d .commonCathode).mpr ⟨h0, h9⟩)
  refine ⟨c, by rw [← segPattern_commonCathode h0, hc], ?_⟩
  cases p with
  | commonCathode => exact exec_encode_of_pattern hm hp hc
  | commonAnode =>
    have hq : segPattern d .commonAnode = some (255#8 - c) := by
      rw [segPattern_commonAnode, hc]
      exact congrArg some (BitVec.allOnes_sub_eq_not c).symm
    exact exec_encode_of_pattern hm hp hq

/-- Settles O25: a non-digit has no pattern, and the fault taken is the one that stays. -/
theorem encodeOfANonDigitTakesInvalidDigit : Obligations.EncodeOfANonDigitTakesInvalidDigit := by
  intro s d p hm hp hf hd
  rw [exec_encode_of_noPattern hm hp ((segPattern_eq_none_iff d p).mpr hd), raisedFault_clearedFault _ hf]

end Sys2Proof.Machine
end

section
/-! The activation masks: what a well-formed table selects (R178, R179), ACTMASK (R177), and the default wiring
(R181). -/

namespace Sys2Proof.Machine

/-! ### Well-formed tables -/

/-- In a well-formed configuration an entry makes its own position active and no other (R178). -/
theorem maskActivates_iff {c : Config} (hc : configWf c = true) {i j : Nat} (hi : i < c.n) (hj : j < c.n) :
    maskActivates c i j = true ↔ i = j := by
  obtain ⟨-, -, -, -, -, -, -, -, hmask⟩ := (configWf_iff c).mp hc
  exact hmask i hi j hj

/-- The level at which `SEL_LINE(j)` is active, read off the select bytes (R97). -/
theorem maskActivates_eq_true {c : Config} {i j : Nat} :
    maskActivates c i j = true ↔ fieldBit (maskOf c i) (selLineOf c j) = c.selActive := beq_iff_eq

/-- Two positions on one select line would be active together (R179). -/
theorem selLineOf_inj {c : Config} (hc : configWf c = true) {i j : Nat} (hi : i < c.n) (hj : j < c.n)
    (h : selLineOf c i = selLineOf c j) : i = j := by
  have hself : maskActivates c i i = true := (maskActivates_iff hc hi hi).mpr rfl
  rw [maskActivates, h] at hself
  exact (maskActivates_iff hc hi hj).mp hself

/-- Two positions with one entry would be active together (R179). -/
theorem maskOf_inj {c : Config} (hc : configWf c = true) {i j : Nat} (hi : i < c.n) (hj : j < c.n)
    (h : maskOf c i = maskOf c j) : i = j := by
  have hself : maskActivates c j j = true := (maskActivates_iff hc hj hj).mpr rfl
  rw [maskActivates, ← h] at hself
  exact (maskActivates_iff hc hi hj).mp hself

/-- Settles O28: the clause of `configWf` on the masks, its two injectivity consequences, and its size clauses. -/
theorem wellFormedMasksSelectOnePosition : Obligations.WellFormedMasksSelectOnePosition := by
  intro c hc
  obtain ⟨-, -, hbits, -⟩ := (configWf_iff c).mp hc
  exact ⟨fun _ _ hi hj => maskActivates_eq_true.symm.trans (maskActivates_iff hc hi hj),
    fun _ _ => selLineOf_inj hc, fun _ _ => maskOf_inj hc, hbits, fun _ => maskOf_length hc⟩

/-! ### ACTMASK -/

/-- Below `N` the table has an entry, and `MASKTAB(i)` is that entry (R176). -/
theorem masktab_getElem?_eq_maskOf {c : Config} (hc : configWf c = true) {i : Nat} (hi : i < c.n) :
    c.masktab[i]? = some (maskOf c i) := by
  obtain ⟨-, -, -, -, hlen, -⟩ := (configWf_iff c).mp hc
  have hi' : i < c.masktab.length := hlen ▸ hi
  simp [maskOf, hi']

/-- The lookup of ACTMASK, once the operation is admitted (R246). -/
theorem exec_actmask_of_idle {s : State} (i : Nat) (hm : s.mode = .stopped) (hp : s.ph = .idle) :
    exec (.actmask i) s = if i < s.cfg.n then .next { s with res := maskOf s.cfg i, status := some .ok }
      else .refused .positionOutOfRange :=
  whenIdle_of_idle s _ hm hp

/-- Settles O27: the two sides of the lookup's bound. -/
theorem actmaskReturnsTheTableEntry : Obligations.ActmaskReturnsTheTableEntry := by
  intro s i hm hp
  rw [exec_actmask_of_idle i hm hp]
  refine ⟨fun hi hc => ⟨_, masktab_getElem?_eq_maskOf hc hi, maskOf_length hc hi, if_pos hi⟩, fun hi => ?_⟩
  exact if_neg (Nat.not_lt.mpr hi)

/-! ### The default wiring -/

/-- The default entry of a position: one bit at the active level, the others at the other level (R181). -/
theorem maskOf_standard {n : Nat} (a : Level) {i : Nat} (hi : i < n) :
    maskOf (Config.standard n a) i = [if a then 1#8 <<< i else ~~~(1#8 <<< i)] := by
  simp [maskOf, Config.standard, hi]

/-- The default select line of position `j` is bit `j` of the field (R181). -/
theorem selLineOf_standard {n : Nat} (a : Level) {j : Nat} (hj : j < n) : selLineOf (Config.standard n a) j = j := by
  simp [selLineOf, Config.standard, hj]

/-- Bit `j` of the byte of a default entry is at the active level just when it is the position's own bit (R181). -/
theorem getLsbD_standardByte (a : Level) {i j : Nat} (hj : j < 8) :
    (if a then 1#8 <<< i else ~~~(1#8 <<< i)).getLsbD j = a ↔ i = j := by
  have hbit : (1#8 <<< i).getLsbD j = true ↔ i = j := by
    have hpow : (1#8 <<< i).getLsbD j = (decide (i < 8) && decide (i = j)) := BitVec.getLsbD_twoPow i j
    rw [hpow, Bool.and_eq_true, decide_eq_true_eq, decide_eq_true_eq]
    omega
  cases a with
  | true => exact hbit
  | false =>
    rw [if_neg Bool.false_ne_true, BitVec.getLsbD_not, decide_eq_true hj, Bool.true_and, Bool.not_eq_false', hbit]

/-- A default entry makes exactly its own position active, at either level (R181). -/
theorem maskActivates_standard {n : Nat} (a : Level) (h8 : n ≤ 8) {i j : Nat} (hi : i < n) (hj : j < n) :
    maskActivates (Config.standard n a) i j = true ↔ i = j := by
  have hj8 : j < 8 := hj.trans_le h8
  rw [maskActivates_eq_true, maskOf_standard a hi, selLineOf_standard a hj, fieldBit, Nat.div_eq_of_lt hj8,
    Nat.mod_eq_of_lt hj8]
  exact getLsbD_standardByte a hj8

/-- Settles O29: the sizes and ranges are read off the record, and a default entry activates its own position alone. -/
theorem defaultConfigurationsAreWellFormed : Obligations.DefaultConfigurationsAreWellFormed := by
  intro n a h1 h8
  refine (configWf_iff _).mpr ⟨h1, le_rfl, h8, le_rfl, ?_, ?_, ?_, ?_, ?_⟩
  · simp [Config.standard]
  · simp [Config.standard]
  · exact List.length_range
  · exact fun b hb => (List.mem_range.mp hb).trans_le h8
  · exact fun i hi j hj => maskActivates_standard a h8 hi hj

end Sys2Proof.Machine
end

section
/-! Refinement: the block's turns after SHIFTBYTE and TRANSMIT are the expansions of R111 performed as a whole, whatever
the oracle answers (R217). -/

namespace Sys2Proof.Machine

/-! ### States with the same bus -/

/-- What a pin write reads and writes is the same in both: the bus view, and the configuration that the chain's reaction
depends on (R121, R150 to R152). -/
def SameBus (s b : State) : Prop := busView s = busView b ∧ s.cfg = b.cfg

section
variable {s b : State}

theorem SameBus.fault (h : SameBus s b) : s.fault = b.fault := congrArg BusView.fault h.1

theorem SameBus.pinAnswer (h : SameBus s b) : s.pinAnswer = b.pinAnswer :=
  congrArg (fun v : BusView => v.pins.headD .ok) h.1

/-- The attempt of a pin write and the reaction to the level it leaves keep two buses the same. -/
theorem SameBus.drive_attempt (h : SameBus s b) (p : Line) (l x : Level) :
    SameBus (drive p x (s.attempt p l)) (drive p x (b.attempt p l)) := by
  obtain ⟨hv, hcfg⟩ := h
  simp only [busView, BusView.mk.injEq] at hv
  obtain ⟨hd, hc, hl, hsh, hout, htrace, hpins, hfault⟩ := hv
  have hbus := drive_bus_congr p x (s := b.attempt p l) (s' := s.attempt p l)
    (by simp [State.bus, hd, hc, hl, hsh, hout]) hcfg
  simp only [State.bus, Prod.mk.injEq] at hbus
  exact ⟨by simp [busView, hbus, htrace, hpins, hfault], by simpa using hcfg⟩

theorem SameBus.raise (h : SameBus s b) (k : FaultKind) : SameBus (raise k s) (raise k b) := by
  obtain ⟨hv, hcfg⟩ := h
  simp only [busView, BusView.mk.injEq] at hv
  exact ⟨by simp [busView, hv], hcfg⟩

end

/-! ### Turns that perform a list of operations -/

/-- On every state with the bus of `s`, the `n` turns of the block from `s` do what performing `is` does, and they end
the operation in progress: with Ok, or with PinFault at the write that failed (R217). -/
def Performs (n : Nat) (s : State) (is : List Instr) : Prop :=
  ∀ b, SameBus s b → ∃ u c, seqSteps n s = .next u ∧ perform is b = .next c ∧ busView u = busView c ∧
    u.ph = .idle ∧ u.mode = .stopped ∧ u.status = some (if u.fault = some .pinFault then .err .pinFault else .ok)

/-- In IDLE the block's turns do nothing (R210). -/
theorem seqSteps_of_idle {s : State} (hp : s.ph = .idle) (n : Nat) : seqSteps n s = .next s := by
  induction n with
  | zero => rfl
  | succ n ih =>
    have hidle : seqStep s = .next s := by simp [seqStep, hp]
    rw [seqSteps_succ n hidle, ih]

/-- A completed operation has no operation left to perform. -/
theorem Performs.completed {s : State} (hf : s.fault ≠ some .pinFault) : Performs 0 (complete s) [] :=
  fun b hb => ⟨_, b, rfl, rfl, hb.1, rfl, rfl, by simp [hf]⟩

/-- A pin write that the oracle fails, with what would have followed it (R121, R214). -/
theorem proceed_pinOp_of_fail {p : Line} {l x : Level} {s : State} (f : State → Outcome) (hf : s.fault ≠ some .pinFault)
    (ha : s.pinAnswer = .fail x) : proceed (pinOp p l s) f = .next (pinLost p l x s) := by
  rw [pinOp_of_noPinFault p l s hf, pinWrite_fail p l x s ha]
  exact proceed_of_pinFault _ f (by simp)

/-- One pin write: a turn that makes it and then advances to `f`, a step that no bus shows, performs it. The oracle
answers the turn and the operation alike; a failure ends both. -/
theorem Performs.write {p : Line} {l : Level} {i : Instr} {f : State → State} {n : Nat} {s : State} {is : List Instr}
    (hturn : seqStep s = proceed (pinOp p l s) fun t => .next (f t)) (hi : ∀ b, exec i b = pinOp p l b)
    (hbus : ∀ t, SameBus t (f t)) (hf : s.fault ≠ some .pinFault) (hrest : Performs n (f (pinDone p l s)) is) :
    Performs (n + 1) s (i :: is) := by
  intro b hb
  have hfb : b.fault ≠ some .pinFault := hb.fault ▸ hf
  have hperform : perform (i :: is) b = proceed (pinOp p l b) (perform is) := congrArg (proceed · _) (hi b)
  cases ha : s.pinAnswer with
  | ok =>
    have hnext : seqStep s = .next (f (pinDone p l s)) := hturn.trans (proceed_pinOp_of_ok _ hf ha)
    have hsame : SameBus (f (pinDone p l s)) (pinDone p l b) := by
      obtain ⟨hv, hcfg⟩ := hb.drive_attempt p l l
      obtain ⟨hv', hcfg'⟩ := hbus (pinDone p l s)
      exact ⟨hv'.symm.trans hv, hcfg'.symm.trans hcfg⟩
    rw [seqSteps_succ n hnext, hperform, proceed_pinOp_of_ok _ hfb (hb.pinAnswer ▸ ha)]
    exact hrest _ hsame
  | fail x =>
    have hlost : seqStep s = .next (pinLost p l x s) := hturn.trans (proceed_pinOp_of_fail _ hf ha)
    rw [seqSteps_succ n hlost, seqSteps_of_idle rfl, hperform, proceed_pinOp_of_fail _ hfb (hb.pinAnswer ▸ ha)]
    obtain ⟨hv, -⟩ := (hb.drive_attempt p l x).raise .pinFault
    exact ⟨_, _, rfl, rfl, hv, rfl, rfl, by simp⟩

/-! ### The turns of a byte -/

theorem sameBus_afterClkl (s : State) : SameBus s (afterClkl s) := by
  unfold afterClkl
  split_ifs <;> exact ⟨rfl, rfl⟩

/-- The three writes of a bit (R93, R111). -/
def bitInstrs (b : Level) : List Instr := [.sdat b, .clkh, .clkl]

/-- The three turns of bit `i` perform its three writes. -/
theorem State.AtBit.performs_bit {s : State} {v : Byte} {i n : Nat} {is : List Instr} (h : s.AtBit v i)
    (hrest : Performs n (afterClkl (bitWritten (dataBit v i) s)) is) :
    Performs (n + 3) s (bitInstrs (dataBit v i) ++ is) := by
  have hf := h.fault
  refine .write (f := fun t => { t with ph := .clkh }) ?_ (fun _ => rfl) (fun _ => ⟨rfl, rfl⟩) hf <|
    .write (f := fun t => { t with ph := .clkl }) rfl (fun _ => rfl) (fun _ => ⟨rfl, rfl⟩) (by simpa using hf) <|
    .write (f := afterClkl) rfl (fun _ => rfl) sameBus_afterClkl (by simpa using hf) hrest
  simp only [seqStep, h.ph, h.txBit]
  rfl

/-- The turns of the first `i` bits of a byte perform their writes. -/
theorem State.AtBit.performs_bits {s : State} {v : Byte} (h : s.AtBit v 0) {i : Nat} (hi : i ≤ 7) {n : Nat}
    {is : List Instr} (hrest : Performs n { s.sendBits (bitsBefore v i) with bitidx := i } is) :
    Performs (n + 3 * i) s ((bitsBefore v i).flatMap bitInstrs ++ is) := by
  induction i generalizing n is with
  | zero =>
    have hnone : { s.sendBits (bitsBefore v 0) with bitidx := 0 } = s := by
      rw [bitsBefore_zero, sendBits_nil, ← h.bit]
    rwa [hnone] at hrest
  | succ i ih =>
    have hadvance : afterClkl (bitWritten (dataBit v i) { s.sendBits (bitsBefore v i) with bitidx := i }) =
        { s.sendBits (bitsBefore v (i + 1)) with bitidx := i + 1 } := by
      have hlt : i < 7 := hi
      rw [bitWritten_sendBits]
      simp [afterClkl, hlt, State.sendBits, h.ph]
    have hbit := (h.after_sendBits i).performs_bit (hadvance ▸ hrest)
    have hall := ih (by omega) hbit
    have hcount : n + 3 * (i + 1) = n + 3 + 3 * i := by ring
    rwa [hcount, bitsBefore_succ, List.flatMap_append, List.append_assoc, List.flatMap_singleton]

theorem expandByte_eq (v : Byte) : expandByte v = (sentBits [v]).flatMap bitInstrs := rfl

/-- The 24 turns of a byte perform its expansion (R111, R129). -/
theorem State.AtBit.performs_byte {s : State} {v : Byte} (h : s.AtBit v 0) {n : Nat} {is : List Instr}
    (hrest : Performs n (afterClkl { s.sendBits (sentBits [v]) with bitidx := 7, ph := .clkl }) is) :
    Performs (n + 24) s (expandByte v ++ is) := by
  have hlast : Performs (n + 3) { s.sendBits (bitsBefore v 7) with bitidx := 7 } (bitInstrs (dataBit v 7) ++ is) :=
    (h.after_sendBits 7).performs_bit (by rwa [bitWritten_sendBits])
  exact h.performs_bits le_rfl hlast

/-- SHIFTBYTE is admitted to a ready block alone (R246). -/
theorem ready_of_exec_shiftbyte {s t : State} {v : Byte} (h : exec (.shiftbyte v) s = .next t) :
    s.ready ∧ t = byteLoaded v s := by
  obtain ⟨hm, hp, ho⟩ := whenIdle_next h
  obtain ⟨hf, ho⟩ := unlessPinFault_next ho
  cases ho
  exact ⟨⟨hm, hp, hf⟩, rfl⟩

/-- Settles O20: the turns perform the expansion of the byte that SHIFTBYTE loads, and loading it leaves the bus as it
is. -/
theorem shiftbyteStepsMatchItsExpansion : Obligations.ShiftbyteStepsMatchItsExpansion := by
  intro s t v h
  obtain ⟨⟨-, -, hf⟩, rfl⟩ := ready_of_exec_shiftbyte h
  have hat : (byteLoaded v s).AtBit v 0 := ⟨rfl, rfl, rfl, hf⟩
  have hbyte : Performs 24 (byteLoaded v s) (expandByte v ++ []) := by
    refine hat.performs_byte ?_
    rw [afterClkl_byteLoaded]
    exact .completed hf
  rw [List.append_nil] at hbyte
  exact hbyte s ⟨rfl, rfl⟩

/-! ### The turns of a transaction -/

/-- The turns of the first `j` bytes of `TXBUF` perform their expansions. -/
theorem performs_bytes {s : State} (hf : s.fault ≠ some .pinFault)
    (ho : s.oper = some .transmit ∨ s.oper = some .run) {j : Nat} (hj : j ≤ s.txbuf.length) {n : Nat} {is : List Instr}
    (hrest : Performs n ((s.sendBits (sentBits (s.txbuf.take j))).atByte j) is) :
    Performs (n + 24 * j) (s.atByte 0) ((s.txbuf.take j).flatMap expandByte ++ is) := by
  induction j generalizing n is with
  | zero => simpa [sentBits, sendBits_nil] using hrest
  | succ j ih =>
    have hv : s.txbuf[j]? = some s.txbuf[j] := List.getElem?_eq_getElem hj
    have hat : ((s.sendBits (sentBits (s.txbuf.take j))).atByte j).AtBit s.txbuf[j] 0 := State.atBit_atByte hv hf
    rw [← List.take_append_getElem hj, sentBits_append, ← Machine.sendBits_append] at hrest
    have hbyte : Performs (n + 24) ((s.sendBits (sentBits (s.txbuf.take j))).atByte j)
        (expandByte s.txbuf[j] ++ is) := by
      refine hat.performs_byte ?_
      rwa [afterClkl_eq_atByte (by exact ho) rfl]
    have hall := ih (by omega) hbyte
    have hcount : n + 24 * (j + 1) = n + 24 + 24 * j := by ring
    rwa [hcount, ← List.take_append_getElem hj, List.flatMap_append, List.append_assoc, List.flatMap_singleton]

/-- The turns of a stand-alone transaction perform its expansion (R111, R141). -/
theorem performs_transaction {s : State} (hp : s.ph = .latl) (hm : s.mode = .stopped) (hf : s.fault ≠ some .pinFault)
    (ho : s.oper = some .transmit) (hbyte : s.byteidx = 0) (hbit : s.bitidx = 0) :
    Performs (24 * s.txbuf.length + 2) s (expandTransmit s.txbuf) := by
  have hlath : Performs 1 s.bytesSent [.lath] := by
    refine .write (f := complete) ?_ (fun _ => rfl) (fun _ => ⟨rfl, rfl⟩) (by simpa using hf)
      (.completed (by simpa using hf))
    exact seqStep_lath s.bytesSent_ph fun t ht => by simp [afterLath, ht, hm]
  have hlen : (pinDone .latch false s).txbuf.length = s.txbuf.length := by simp
  have hbytes : Performs (1 + 24 * s.txbuf.length) ((pinDone .latch false s).atByte 0)
      (s.txbuf.flatMap expandByte ++ [.lath]) := by
    have h := performs_bytes (s := pinDone .latch false s) (j := s.txbuf.length) (by simpa using hf)
      (.inl (by simpa using ho)) hlen.ge (n := 1) (is := [.lath])
    simp only [pinDone_eq, drive_txbuf, attempt_txbuf, List.take_length] at h
    exact h hlath
  have hlatl : Performs (1 + 24 * s.txbuf.length + 1) s (expandTransmit s.txbuf) := by
    refine .write (f := afterLatl) (by simp only [seqStep, hp]; rfl) (fun _ => rfl) (fun _ => ⟨rfl, rfl⟩) hf ?_
    rwa [afterLatl_eq_atByte (by simpa using hbyte) (by simpa using hbit)]
  rwa [Nat.add_comm 1, Nat.add_assoc] at hlatl

/-- TRANSMIT is admitted to a ready block alone (R246). -/
theorem ready_of_exec_transmit {s t : State} {len : Nat} (h : exec (.transmit len) s = .next t) :
    s.ready ∧ t = transmitLoaded len s := by
  obtain ⟨hm, hp, ho⟩ := whenIdle_next h
  obtain ⟨hf, ho⟩ := unlessPinFault_next ho
  cases ho
  exact ⟨⟨hm, hp, hf⟩, rfl⟩

/-- Settles O21: the turns perform the LATL, the expansions of the bytes and the LATH of the transaction that TRANSMIT
loads. -/
theorem transmitStepsMatchItsExpansion : Obligations.TransmitStepsMatchItsExpansion := by
  intro s t len h
  obtain ⟨⟨hm, -, hf⟩, rfl⟩ := ready_of_exec_transmit h
  have hall := performs_transaction (s := transmitLoaded len s) rfl hm hf rfl rfl rfl
  have hlen : (transmitLoaded len s).txbuf.length = len := txseqBytes_length _ _ _
  rw [hlen] at hall
  exact hall s ⟨rfl, rfl⟩

end Sys2Proof.Machine
end

section
/-! The sequencer phase by phase: the whole next state of the block's turn in each of them (R211 to R216), and of RUN
and STOP, which the caller issues (R203, R208). -/

namespace Sys2Proof.Machine

/-! ### POLL and FETCH -/

/-- Settles O30: the two answers of the poll. -/
theorem slotPollsTheStopRequest : Obligations.SlotPollsTheStopRequest := by
  intro s
  refine ⟨fun hs => ?_, fun hs => ?_⟩
  · simp [exec, execSlot, hs, complete, State.emit]
  · simp [exec, execSlot, hs, State.emit]

/-- FETCH of a written entry without a pattern takes InvalidDigit (R212). -/
theorem seqStep_fetch_of_noPattern {s : State} {v : Int} (hp : s.ph = .fetch) (hpos : s.pos < s.cfg.n)
    (hr : Memory.read s.frame s.pos = some v) (hq : segPattern v s.cfg.polarity = none) :
    seqStep s = .next (raise .invalidDigit (s.emit (.rd s.pos v))) := by
  simp [seqStep, fetchStep, hp, hpos, hr, hq]

/-- FETCH of a written entry with a pattern builds the transaction (R212). -/
theorem seqStep_fetch_of_pattern {s : State} {v : Int} {q : Byte} (hp : s.ph = .fetch) (hpos : s.pos < s.cfg.n)
    (hr : Memory.read s.frame s.pos = some v) (hq : segPattern v s.cfg.polarity = some q) :
    seqStep s = .next { s with
      trace := s.trace ++ [.rd s.pos v], txbuf := slotSeq s.cfg q (maskOf s.cfg s.pos), byteidx := 0, bitidx := 0
      ph := .latl } := by
  simp [seqStep, fetchStep, hp, hpos, hr, hq, State.emit]

/-- Settles O31: a non-digit has no pattern, a digit has one. -/
theorem fetchReadsOneEntryAndBuildsTheTransaction : Obligations.FetchReadsOneEntryAndBuildsTheTransaction := by
  intro s v hp hpos hr
  refine ⟨fun hf hv => ?abort, fun h0 h9 => ?build⟩
  case abort =>
    rw [seqStep_fetch_of_noPattern hp hpos hr ((segPattern_eq_none_iff v _).mpr hv)]
    simp [raise, raisedFault, State.emit, hf]
  case build =>
    obtain ⟨q, hq⟩ := Option.isSome_iff_exists.mp ((segPattern_isSome_iff v s.cfg.polarity).mpr ⟨h0, h9⟩)
    exact ⟨q, hq, seqStep_fetch_of_pattern hp hpos hr hq⟩

/-! ### The phases that write a pin -/

/-- A failed write in a writing phase ends the operation in progress, with the line and the chain where the drawn level
puts them (R121, R214, R240). -/
theorem PinPhase.seqStep_of_fail {s : State} {p : Line} {l x : Level} (h : PinPhase s p l)
    (hf : s.fault ≠ some .pinFault) (hx : s.pins.head? = some (.fail x)) :
    seqStep s = .next (drive p x (pinFaulted p l s)) := by
  have ha : s.pinAnswer = .fail x := by simp [State.pinAnswer, hx]
  rw [← raise_drive_attempt]
  cases h with
  | sdat b hp hb =>
    simp only [seqStep, hp, hb]
    exact proceed_pinOp_of_fail _ hf ha
  | latl hp | clkh hp | clkl hp | lath hp =>
    simp only [seqStep, hp]
    exact proceed_pinOp_of_fail _ hf ha

/-- The next state of a failed write of LATCH, written out. -/
theorem PinPhase.seqStep_latch_of_fail {s : State} {l x : Level} (h : PinPhase s .latch l)
    (hf : s.fault ≠ some .pinFault) (hx : s.pins.head? = some (.fail x)) :
    seqStep s = .next { pinFaulted .latch l s with
      latch := x, out := if s.latch = false ∧ x = true then s.sh else s.out } :=
  (h.seqStep_of_fail hf hx).trans (congrArg _ (drive_latch_eq x _))

/-- The next state of a failed write of CLOCK, written out. -/
theorem PinPhase.seqStep_clock_of_fail {s : State} {l x : Level} (h : PinPhase s .clock l)
    (hf : s.fault ≠ some .pinFault) (hx : s.pins.head? = some (.fail x)) :
    seqStep s = .next { pinFaulted .clock l s with
      clock := x
      sh := if s.clock = false ∧ x = true then shiftIn s.data s.sh else s.sh
      out := if s.clock = false ∧ x = true ∧ s.cfg.latchTransparent = true ∧ s.latch = true then shiftIn s.data s.sh
        else s.out } :=
  (h.seqStep_of_fail hf hx).trans (congrArg _ (drive_clock_eq x _))

/-- Settles O32: a falling edge of LATCH commits nothing, and the bytes of `TXBUF` decide what comes next. -/
theorem phaseLatlStartsTheTransaction : Obligations.PhaseLatlStartsTheTransaction := by
  intro s hp hf
  refine ⟨fun hok => ?_, fun x hx => (PinPhase.latl hp).seqStep_latch_of_fail hf hx⟩
  rw [seqStep_latl_of_ok hp hf hok.pinAnswer]
  simp [afterLatl, drive_latch_eq, State.attempt]

/-- The write of LATH and the start of the hold are one step while scanning (R215). -/
theorem seqStep_lath_of_scanning {s : State} (hp : s.ph = .lath) (hm : s.mode = .scanning)
    (hf : s.fault ≠ some .pinFault) (ha : s.pinAnswer = .ok) : seqStep s = exec .wait (pinDone .latch true s) := by
  rw [seqStep_lath (f := exec .wait) hp fun t ht => by simp [afterLath, ht, hm]]
  exact proceed_pinOp_of_ok _ hf ha

/-- The commit of R151, written out: LATCH low before the write is a rising edge. -/
theorem pinDone_lath_eq (s : State) :
    pinDone .latch true s = { s with
      latch := true, out := if s.latch = true then s.out else s.sh, trace := s.trace ++ [.w .latch true]
      pins := s.pins.tail } := by
  cases hl : s.latch <;> simp [drive_latch_eq, State.attempt, hl]

/-- Settles O34: after the commit `MODE` says whether the hold begins or the operation is done. -/
theorem phaseLathCommitsAndHolds : Obligations.PhaseLathCommitsAndHolds := by
  intro s hp hf
  refine ⟨fun hok hm => ?hold, fun hok hm => ?done, fun x hx => (PinPhase.lath hp).seqStep_latch_of_fail hf hx⟩
  case hold =>
    rw [seqStep_lath_of_scanning hp hm hf hok.pinAnswer, pinDone_lath_eq]
    simp [exec, execWait]
  case done =>
    rw [seqStep_lath_of_ok hp hm hf hok.pinAnswer, pinDone_lath_eq]
    simp [complete, hm]

/-- The CLKL phase writes CLOCK low, which is no edge, and advances (R214). -/
theorem seqStep_clkl_eq {s : State} (hp : s.ph = .clkl) (hf : s.fault ≠ some .pinFault) (hok : s.okFor 1) :
    seqStep s = .next (afterClkl { s with
      clock := false, trace := s.trace ++ [.w .clock false], pins := s.pins.tail }) := by
  rw [seqStep_clkl_of_ok hp hf hok.pinAnswer]
  simp [drive_clock_eq, State.attempt]

/-- Settles O33: each phase of a bit makes its write; where the CLKL phase goes on depends on the bit, the byte and the
operation. -/
theorem phasesOfOneBit : Obligations.PhasesOfOneBit := by
  intro s hf
  refine ⟨fun hp x hx => (PinPhase.latl hp).seqStep_latch_of_fail hf hx,
    fun hp x hx => (PinPhase.lath hp).seqStep_latch_of_fail hf hx, fun v hp hv => ?sdat, fun hp => ?clkh,
    fun hp => ?clkl⟩
  case sdat =>
    have hb : s.txBit = some (v.getLsbD (7 - s.bitidx)) := by simp [State.txBit, hv, dataBit]
    exact ⟨fun hok => seqStep_sdat_of_ok hp hb hf hok.pinAnswer,
      fun x hx => (PinPhase.sdat _ hp hb).seqStep_of_fail hf hx⟩
  case clkh =>
    refine ⟨fun hok => ?_, fun x hx => (PinPhase.clkh hp).seqStep_clock_of_fail hf hx⟩
    rw [seqStep_clkh_of_ok hp hf hok.pinAnswer]
    simp [drive_clock_eq, State.attempt]
  case clkl =>
    refine ⟨fun hok h7 => ?bit, fun hok h7 hnext => ?byte, fun hok h7 hlast ho => ?commit, fun hok h7 hlast ho => ?done,
      fun x hx => (PinPhase.clkl hp).seqStep_clock_of_fail hf hx⟩
    all_goals rw [seqStep_clkl_eq hp hf hok]
    case bit => simp [afterClkl, h7]
    case byte => simp [afterClkl, Nat.not_lt.mpr h7, hnext]
    case commit => simp [afterClkl, Nat.not_lt.mpr h7, Nat.not_lt.mpr hlast, ho]
    case done => simp [afterClkl, Nat.not_lt.mpr h7, Nat.not_lt.mpr hlast, ho, complete]

/-! ### WAIT -/

/-- Settles O35: the comparison of `holdOver` is the one of R128. -/
theorem holdLastsAtLeastTheSlotDuration : Obligations.HoldLastsAtLeastTheSlotDuration := by
  intro s hp
  have hturn : seqStep s = .next (holdStep s) := by simp [seqStep, hp]
  rw [hturn, holdStep]
  refine ⟨fun hlt => ?_, fun hle => ?_⟩
  · rw [if_neg (mt (holdOver_iff s).mp (not_le.mpr hlt))]
  · rw [if_pos ((holdOver_iff s).mpr hle)]

/-! ### RUN and STOP -/

/-- Settles O38: a ready block with a positive rate and a well-formed configuration is what RUN asks for. -/
theorem runStartsTheScan : Obligations.RunStartsTheScan := by
  intro s ⟨hm, hp, hf⟩ hz hc
  have hnum : ¬ s.refreshHz.num ≤ 0 := not_le.mpr (Rat.num_pos.mpr hz)
  have hclear : clearedFault s.fault = none := by simp [clearedFault, hf]
  rw [← slotDuration_eq _ _ hz, ← hclear]
  refine (whenIdle_of_idle s _ hm hp).trans ((unlessPinFault_of_noPinFault s _ hf).trans ?_)
  rw [if_neg hnum, if_pos hc]

/-- Settles O39: STOP has no condition on the state. -/
theorem stopSetsTheRequest : Obligations.StopSetsTheRequest :=
  fun _ => rfl

end Sys2Proof.Machine
end

section
/-! A whole slot (R197, R217): its poll, its fetch, the transaction of its digit and the start of its hold. -/

namespace Sys2Proof.Machine

/-- The turns of a transaction up to its commit: LATL and the bytes (R141, R213, R214). -/
theorem seqSteps_bytesSent {s : State} (hp : s.ph = .latl) (hf : s.fault ≠ some .pinFault)
    (ho : s.oper = some .transmit ∨ s.oper = some .run) (hbyte : s.byteidx = 0) (hbit : s.bitidx = 0)
    (hok : s.okFor (24 * s.txbuf.length + 1)) : seqSteps (24 * s.txbuf.length + 1) s = .next s.bytesSent := by
  have hlatl : seqStep s = .next ((pinDone .latch false s).atByte 0) := by
    rw [seqStep_latl_of_ok hp hf hok.pinAnswer, afterLatl_eq_atByte (by simpa using hbyte) (by simpa using hbit)]
  have hok' : (pinDone .latch false s).okFor (24 * s.txbuf.length) := hok.tail (by simp)
  rw [seqSteps_succ _ hlatl, seqSteps_bytes (by simpa using hf) (by simpa using ho) (by simp) hok']
  simp [State.bytesSent]

/-- The turns of a slot's transaction, its commit and the start of its hold (R213 to R215). -/
theorem seqSteps_slotTransaction {s : State} (hp : s.ph = .latl) (hm : s.mode = .scanning)
    (hf : s.fault ≠ some .pinFault) (ho : s.oper = some .run) (hbyte : s.byteidx = 0) (hbit : s.bitidx = 0)
    (hok : s.okFor (24 * s.txbuf.length + 2)) :
    seqSteps (24 * s.txbuf.length + 2) s = exec .wait (pinDone .latch true s.bytesSent) := by
  have hbytes := seqSteps_bytesSent hp hf (.inr ho) hbyte hbit (hok.mono (by omega))
  have hlast : s.bytesSent.okFor 1 :=
    State.okFor.drop (m := 24 * s.txbuf.length + 1) hok (by simp [Nat.add_comm])
  have hlath : seqStep s.bytesSent = exec .wait (pinDone .latch true s.bytesSent) :=
    seqStep_lath_of_scanning s.bytesSent_ph (by simpa using hm) (by simpa using hf) hlast.pinAnswer
  rw [seqSteps_add 1 hbytes, seqSteps_succ 0 hlath]
  rfl

/-- With CLOCK low at entry, as many bits as the chain has stages leave nothing of the old content (R153). -/
theorem stagesAfter_full {s : State} (hc : s.clock = false) {bs : List Byte} (hlen : s.sh.length = 8 * bs.length) :
    s.stagesAfter (sentBits bs) = (sentBits bs).reverse := by
  rw [State.stagesAfter, edgeBits_of_low hc]
  exact List.take_left' (by simp [hlen])

/-- What FETCH of a slot leaves for the sequencer: its poll and its read are events, and its bytes are in `TXBUF` (R211,
R212). -/
def slotLoaded (v : Int) (seq : List Byte) (s : State) : State :=
  { s with
    trace := s.trace ++ [.poll false, .rd s.pos v], txbuf := seq, byteidx := 0, bitidx := 0, ph := .latl }

/-- The two turns before the transaction of a slot (R211, R212). -/
theorem seqSteps_slotLoaded {s : State} {v : Int} {q : Byte} (hp : s.ph = .poll) (hstop : s.stopReq = false)
    (hpos : s.pos < s.cfg.n) (hr : Memory.read s.frame s.pos = some v) (hq : segPattern v s.cfg.polarity = some q) :
    seqSteps 2 s = .next (slotLoaded v (slotSeq s.cfg q (maskOf s.cfg s.pos)) s) := by
  have hpoll : seqStep s = .next { s with trace := s.trace ++ [.poll false], ph := .fetch } := by
    simp only [seqStep, hp]
    exact (slotPollsTheStopRequest s).2 hstop
  have hfetch := seqStep_fetch_of_pattern (s := { s with trace := s.trace ++ [.poll false], ph := .fetch }) rfl hpos hr
    hq
  rw [seqSteps_succ 1 hpoll, seqSteps_succ 0 hfetch]
  simp [seqSteps, slotLoaded]

/-- Settles O37: poll and fetch load the transaction, its turns send the bytes, and they fill the chain. -/
theorem slotShowsItsDigit : Obligations.SlotShowsItsDigit := by
  intro s v q seq hi hp hstop hr hq hseq hok
  have hphase := hi.phaseInv
  simp only [State.PhaseInv, hp] at hphase
  obtain ⟨hrun, ho, hc, -⟩ := hphase
  have hseq : seq = slotSeq s.cfg q (maskOf s.cfg s.pos) := hseq
  have hlen : seq.length = s.cfg.k := by simp [hseq, maskOf_length hi.cfgWf hi.posLt, Config.k]
  have hload : seqSteps 2 s = .next (slotLoaded v seq s) := hseq ▸ seqSteps_slotLoaded hp hstop hi.posLt hr hq
  have hsend : seqSteps (24 * seq.length + 2) (slotLoaded v seq s) = _ :=
    seqSteps_slotTransaction rfl (hrun.mode.mpr ho) hrun.fault ho rfl rfl (by rw [← hlen] at hok; exact hok)
  have hcount : 24 * s.cfg.k + 4 = 2 + (24 * seq.length + 2) := by omega
  rw [hcount, seqSteps_add _ hload, hsend, pinDone_lath_eq]
  simp [exec, execWait, slotLoaded, State.bytesSent, State.atByte, State.sendBits, drive_latch_eq, State.attempt,
    stagesAfter_full, hi.shLen, sentBits_flatMap_wireBit, wireTransmit, ← Nat.mul_assoc, hlen, hc]

end Sys2Proof.Machine
end

section
/-! The transitions of `MODE` (R191), what the end of a run leaves on the bus (R209), and who changes `STOP_REQ`, the
two ports and `NOW` (R22, R33). -/

namespace Sys2Proof.Machine

/-! ### MODE -/

/-- The block's turn starts no scan (R191). -/
theorem BlockStep.scanning {s t : State} (h : BlockStep s t) (hm : t.mode = .scanning) : s.mode = .scanning := by
  cases h with
  | idle | hold | advance | pollGo | fetchGo => exact hm
  | pollStop | fetchBad | pinFail | lathDone => cases hm
  | latl | sdat | clkh | lathHold => simpa using hm
  | clkl => simpa using scanning_of_afterClkl hm

/-- How the block's turn ends a run (R191): a request seen by the poll, a bad digit, or a failed pin write. -/
inductive RunEnd (s : State) : State → Prop
  | stop : s.ph = .poll → s.stopReq = true → RunEnd s (complete (s.emit (.poll true)))
  | badDigit (v : Int) : s.ph = .fetch → RunEnd s (raise .invalidDigit (s.emit (.rd s.pos v)))
  | pinFault (p : Line) (l x : Level) : PinPhase s p l → RunEnd s (pinLost p l x s)

/-- After the CLKL phase a RUN goes on (R214). -/
theorem afterClkl_mode_of_run {s : State} (ho : s.oper = some .run) : (afterClkl s).mode = s.mode := by
  unfold afterClkl
  simp only [ho, or_true, if_true]
  split_ifs <;> rfl

theorem BlockStep.runEnd {s t : State} (h : BlockStep s t) (hi : s.Inv) (hs : s.mode = .scanning)
    (ht : t.mode = .stopped) : RunEnd s t := by
  have hgoes : t.mode = s.mode → RunEnd s t := fun e => by simp [e, hs] at ht
  cases h with
  | pollStop hp hstop => exact .stop hp hstop
  | fetchBad v hp => exact .badDigit v hp
  | pinFail p l x hpin => exact .pinFault p l x hpin
  | idle | hold | advance | pollGo | fetchGo => exact hgoes rfl
  | latl | sdat | clkh | lathHold => exact hgoes (by simp)
  | clkl => exact hgoes ((afterClkl_mode_of_run (by simpa using hi.scanIffRun.mp hs)).trans (by simp))
  | lathDone _ _ hm => simp [hm] at hs

/-- Only RUN starts a scan, and it asks for a ready block and a positive rate (R191, R203). -/
theorem CallerStep.run_of_scanning {s t : State} {a : Act} (h : CallerStep s a t) (hs : s.mode = .stopped)
    (ht : t.mode = .scanning) : a = .issue 0x4200#16 ∧ s.ready ∧ 0 < s.refreshHz := by
  cases h with
  | run w hd hr hhz => exact ⟨by rw [eq_of_decode_run hd], hr, Rat.num_pos.mp hhz⟩
  | encodeBad => cases ht
  | shiftbyte | transmit | encode | actmask | stop | writeFrame | writeStop | writeTxseq | writeRefreshHz | tick =>
    simp [hs] at ht

/-- No turn of the caller or of the time source ends a scan (R191). -/
theorem CallerStep.scanning {s t : State} {a : Act} (h : CallerStep s a t) (hs : s.mode = .scanning) :
    t.mode = .scanning := by
  cases h with
  | run => rfl
  | encodeBad w d p hd hm => simp [hm] at hs
  | shiftbyte | transmit | encode | actmask | stop | writeFrame | writeStop | writeTxseq | writeRefreshHz | tick =>
    exact hs

/-- A step that ends a run is the block's turn (R191). -/
theorem runEnd_of_step {s t : State} (hi : s.Inv) (h : step s = .next t) (hs : s.mode = .scanning)
    (ht : t.mode = .stopped) : ∃ rest, RunEnd { s with sched := rest } t := by
  obtain ⟨rest, hb⟩ | ⟨a, rest, -, hc⟩ := step_agent h
  · exact ⟨rest, hb.runEnd { hi with } hs ht⟩
  · simp [hc.scanning hs] at ht

theorem PinPhase.phase {s : State} {p : Line} {l : Level} (h : PinPhase s p l) :
    s.ph = .latl ∨ s.ph = .sdat ∨ s.ph = .clkh ∨ s.ph = .clkl ∨ s.ph = .lath := by
  cases h <;> simp [*]

/-- Settles O48: RUN alone starts a scan, and the ends of a run are the three of `RunEnd`. -/
theorem modeChangesOnlyAsTheTableSays : Obligations.ModeChangesOnlyAsTheTableSays := by
  intro s t hi h
  refine ⟨fun hs ht => ?start, fun hs ht => ?stop⟩
  case start =>
    obtain ⟨rest, hb⟩ | ⟨a, rest, hsched, hc⟩ := step_agent h
    · have := hb.scanning ht
      simp [hs] at this
    · obtain ⟨rfl, hr, hhz⟩ := hc.run_of_scanning hs ht
      exact ⟨by simp [hsched], hr, hhz⟩
  case stop =>
    obtain ⟨rest, hend⟩ := runEnd_of_step hi h hs ht
    cases hend with
    | stop hp hstop => exact .inl ⟨hp, hstop, rfl⟩
    | badDigit v hp =>
      have hf : s.fault ≠ some .pinFault := (hi.running (by simp [show s.ph = .fetch from hp])).fault
      exact .inr (.inl ⟨hp, by simp [raisedFault, hf], rfl⟩)
    | pinFault p l x hpin => exact .inr (.inr ⟨hpin.phase, by simp, rfl⟩)

/-- Settles O56: POLL and FETCH have the bus at rest, and the end of a run there leaves it alone. -/
theorem endedRunLeavesTheBusInOrder : Obligations.EndedRunLeavesTheBusInOrder := by
  intro s t hi hs h ht hf
  have hphase := hi.phaseInv
  obtain ⟨rest, hend⟩ := runEnd_of_step hi h hs ht
  cases hend with
  | stop hp | badDigit v hp =>
    have hp : s.ph = _ := hp
    simp only [State.PhaseInv, hp] at hphase
    obtain ⟨-, -, hc, hl⟩ := hphase
    exact ⟨hl, hc, rfl, rfl, rfl⟩
  | pinFault => simp at hf

/-! ### STOP_REQ, the ports and NOW -/

/-- `0x4300` is the only word of STOP (R105). -/
theorem eq_of_decode_stop {w : Word} (h : decode w = .ok .stop) : w = 0x4300#16 :=
  (encode_of_decode h).symm

/-- What a turn of the caller or of the time source does to `STOP_REQ`, the ports and `NOW`: it keeps each of them, or
it is the turn that names it; STOP sets `STOP_REQ` (R208, R103, R49). -/
theorem CallerStep.named {s t : State} {a : Act} (h : CallerStep s a t) :
    (t.stopReq = s.stopReq ∨ a = .writeStop t.stopReq ∨ (t.stopReq = true ∧ a = .issue 0x4300#16)) ∧
    (t.txseq = s.txseq ∨ a = .writeTxseq t.txseq) ∧
    (t.refreshHz = s.refreshHz ∨ a = .writeRefreshHz t.refreshHz) ∧
    (t.now = s.now ∨ ∃ d, a = .tick d ∧ t.now = s.now + d) := by
  cases h with
  | stop w hd => exact ⟨.inr (.inr ⟨rfl, by rw [eq_of_decode_stop hd]⟩), .inl rfl, .inl rfl, .inl rfl⟩
  | writeStop => exact ⟨.inr (.inl rfl), .inl rfl, .inl rfl, .inl rfl⟩
  | writeTxseq => exact ⟨.inl rfl, .inr rfl, .inl rfl, .inl rfl⟩
  | writeRefreshHz => exact ⟨.inl rfl, .inl rfl, .inr rfl, .inl rfl⟩
  | tick d => exact ⟨.inl rfl, .inl rfl, .inl rfl, .inr ⟨d, rfl, rfl⟩⟩
  | shiftbyte | transmit | encode | encodeBad | actmask | run | writeFrame =>
    exact ⟨.inl rfl, .inl rfl, .inl rfl, .inl rfl⟩

/-- The same of a step: the turn that names the field is at the head of the schedule. -/
theorem step_named {s t : State} (h : step s = .next t) :
    (t.stopReq = s.stopReq ∨ s.sched.head? = some (.writeStop t.stopReq) ∨
      (t.stopReq = true ∧ s.sched.head? = some (.issue 0x4300#16))) ∧
    (t.txseq = s.txseq ∨ s.sched.head? = some (.writeTxseq t.txseq)) ∧
    (t.refreshHz = s.refreshHz ∨ s.sched.head? = some (.writeRefreshHz t.refreshHz)) ∧
    (t.now = s.now ∨ ∃ d, s.sched.head? = some (.tick d) ∧ t.now = s.now + d) := by
  obtain ⟨rest, hb⟩ | ⟨a, rest, hs, hc⟩ := step_agent h
  · obtain ⟨-, -, hstop, htx, hhz, hnow, -⟩ := hb.keeps
    exact ⟨.inl hstop, .inl htx, .inl hhz, .inl hnow⟩
  · simpa [hs] using hc.named

/-- Settles O59: the first four clauses are turns of the schedule, the others are what any step does to the field. -/
theorem plainWritesAndTicksChangeOneField : Obligations.PlainWritesAndTicksChangeOneField := by
  intro s rest hc
  refine ⟨fun b hs => step_of_sched_cons hc hs, fun bs hs => step_of_sched_cons hc hs,
    fun hz hs => step_of_sched_cons hc hs, fun d hs => step_of_sched_cons hc hs, fun t h => ?_, fun t h => ?_,
    fun t h => ?_, fun t h => ?_⟩
  all_goals obtain ⟨hstop, htx, hhz, hnow⟩ := step_named h
  · exact hstop.resolve_left
  · exact htx.resolve_left
  · exact hhz.resolve_left
  · exact hnow.resolve_left

end Sys2Proof.Machine
end

section
/-! After a PinFault (R243, R262): the block is idle and stays so, and no turn of another agent touches a line, the
chain or `FAULT`. -/

namespace Sys2Proof.Machine

/-! ### Runs -/

/-- The first step of a run that answers a next state. -/
theorem run_succ_next {M : Host.Core} {n : Nat} {s t : M.State} (h : M.run (n + 1) s = .next t) :
    ∃ u, M.step s = .next u ∧ M.run n u = .next t := by
  unfold Host.Core.run at h
  split at h
  · rename_i u hu; exact ⟨u, hu, h⟩
  · cases h
  · cases h

/-- What every step keeps, every run keeps. -/
theorem run_keeps {M : Host.Core} {P : M.State → Prop} (hstep : ∀ s t, P s → M.step s = .next t → P t) (n : Nat)
    {s t : M.State} (hs : P s) (h : M.run n s = .next t) : P t := by
  induction n generalizing s with
  | zero => cases h; exact hs
  | succ n ih =>
    obtain ⟨u, hu, hrun⟩ := run_succ_next h
    exact ih (hstep s u hs hu) hrun

/-! ### The turns after a PinFault -/

/-- In IDLE the block's turn does nothing (R210). -/
theorem BlockStep.eq_of_idle {s t : State} (h : BlockStep s t) (hp : s.ph = .idle) : t = s := by
  cases h with
  | idle | hold => rfl
  | pinFail p l x hpin => have hq := hpin.phase; simp [hp] at hq
  | pollStop hq | pollGo hq | fetchBad _ hq | fetchGo _ _ hq | latl hq | sdat _ hq | clkh hq | clkl hq | lathHold hq
  | lathDone hq | advance hq => simp [hp] at hq

/-- A turn of the caller or of the time source writes no line and moves nothing in the chain (R22, R23). -/
theorem CallerStep.bus {s t : State} {a : Act} (h : CallerStep s a t) : t.bus = s.bus := by
  cases h <;> rfl

/-- A turn of the caller or of the time source does not clear a PinFault (R32, R262). -/
theorem CallerStep.pinFault {s t : State} {a : Act} (h : CallerStep s a t) (hf : s.fault = some .pinFault) :
    t.fault = some .pinFault := by
  cases h with
  | encode | encodeBad | run => simp [hf]
  | shiftbyte | transmit | actmask | stop | writeFrame | writeStop | writeTxseq | writeRefreshHz | tick => exact hf

/-- `t` is an invariant state after a PinFault, with the lines and the chain of `s`. -/
def State.BrokenAs (s t : State) : Prop := t.Inv ∧ t.fault = some .pinFault ∧ t.bus = s.bus

theorem State.BrokenAs.step {r s t : State} (h : r.BrokenAs s) (hst : step s = .next t) : r.BrokenAs t := by
  obtain ⟨hi, hf, hbus⟩ := h
  have hinv : t.Inv := stepKeepsTheStateInvariants s t hi hst
  obtain ⟨rest, hb⟩ | ⟨a, rest, -, hc⟩ := step_agent hst
  · have ht : t = { s with sched := rest } := hb.eq_of_idle (hi.pinFaultIdle hf).2
    subst ht
    exact ⟨hinv, hf, hbus⟩
  · exact ⟨hinv, hc.pinFault hf, hc.bus.trans hbus⟩

/-- Settles O42: every step keeps the PinFault and the bus, since R52 (f) has the block idle. -/
theorem nothingIsWrittenAfterPinFault : Obligations.NothingIsWrittenAfterPinFault := by
  intro n s t hi hf h
  have hbroken : s.BrokenAs t :=
    run_keeps (M := Sys2Proof.core) (P := s.BrokenAs) (fun _ _ => State.BrokenAs.step) n ⟨hi, hf, rfl⟩ h
  obtain ⟨-, ht, hbus⟩ := hbroken
  simp only [State.bus, Prod.mk.injEq] at hbus
  exact ⟨ht, hbus⟩

/-! ### Operations after a PinFault -/

theorem unlessPinFault_of_pinFault (s : State) (o : Outcome) (h : s.fault = some .pinFault) :
    unlessPinFault s o = .refused .pinFaultSticky := by
  simp [unlessPinFault, h]

/-- Settles O41: the micro-operations are pin writes, and the others are admitted when idle and unless a PinFault. -/
theorem pinFaultRefusesEveryWriter : Obligations.PinFaultRefusesEveryWriter := by
  intro s b v len hf
  have hpin (p : Line) (l : Level) : pinOp p l s = .refused .pinFaultSticky := pinOp_of_pinFault p l s hf
  refine ⟨hpin _ _, hpin _ _, hpin _ _, hpin _ _, hpin _ _, fun hm hp => ?_⟩
  have hwhole (o : Outcome) : whenIdle s (unlessPinFault s o) = .refused .pinFaultSticky :=
    (whenIdle_of_idle s _ hm hp).trans (unlessPinFault_of_pinFault s o hf)
  exact ⟨hwhole _, hwhole _, hwhole _⟩

/-- Settles O26: neither the clearing at the entry of ENCODE nor the new fault moves a PinFault. -/
theorem invalidDigitDoesNotClearPinFault : Obligations.InvalidDigitDoesNotClearPinFault := by
  intro s d p hm hp hf hd
  have hkeep : raisedFault .invalidDigit (clearedFault s.fault) = s.fault := by simp [hf, raisedFault]
  rw [exec_encode_of_noPattern hm hp ((segPattern_eq_none_iff d p).mpr hd), hkeep]

end Sys2Proof.Machine
end

section
/-! Admission (R246, R203, R204), and the end of the slot hold (R250, R128). -/

namespace Sys2Proof.Machine

/-! ### Admission -/

theorem whenIdle_of_scanning {s : State} (o : Outcome) (hm : s.mode = .scanning) :
    whenIdle s o = .refused .whileScanning := by
  simp [whenIdle, hm]

theorem whenIdle_of_inProgress {s : State} (o : Outcome) (hm : s.mode = .stopped) (hp : s.ph ≠ .idle) :
    whenIdle s o = .refused .operationInProgress := by
  simp [whenIdle, hm, hp]

/-- RUN issued to a ready block: what is left to check is the rate and the configuration (R203, R204). -/
theorem exec_run_of_ready {s : State} (hr : s.ready) :
    exec .run s =
      if s.refreshHz.num ≤ 0 then .refused .refreshNotPositive
      else if configWf s.cfg then
        .next { s with
          fault := clearedFault s.fault, mode := .scanning, slotdur := slotDuration s.refreshHz s.cfg.n, pos := 0
          ph := .poll, oper := some .run, status := none }
      else .refused .configIllFormed :=
  (whenIdle_of_idle s _ hr.1 hr.2.1).trans (unlessPinFault_of_noPinFault s _ hr.2.2)

/-- Settles O40: the five operations ask for an idle block; a ready one lets RUN check the rate, then the configuration.
-/
theorem operationsNotAdmittedAreRefused : Obligations.OperationsNotAdmittedAreRefused := by
  intro s v len d p i
  refine ⟨fun hm => ?scanning, fun hm hp => ?inProgress, fun hr hz => ?rate, fun hr hz hc => ?config⟩
  case scanning =>
    have h (o : Outcome) := whenIdle_of_scanning o hm
    exact ⟨h _, h _, h _, h _, h _⟩
  case inProgress =>
    have h (o : Outcome) := whenIdle_of_inProgress o hm hp
    exact ⟨h _, h _, h _, h _, h _⟩
  case rate => rw [exec_run_of_ready hr, if_pos (Rat.num_nonpos.mpr hz)]
  case config =>
    have hnum : ¬ s.refreshHz.num ≤ 0 := not_le.mpr (Rat.num_pos.mpr hz)
    rw [exec_run_of_ready hr, if_neg hnum, hc, if_neg Bool.false_ne_true]

/-! ### The end of the hold -/

/-- Settles O36: `1000 * SLOTDUR` milliseconds, rounded up, are enough, since `T0` is not after `NOW` (R49). -/
theorem everyHoldEnds : Obligations.EveryHoldEnds := by
  intro s hi hp
  obtain ⟨d, hd⟩ := exists_nat_ge (1000 * s.slotdur)
  refine ⟨d, fun d' hle => ?_⟩
  have hover : 1000 * s.slotdur ≤ ((s.now + d' : Nat) : Rat) - (s.t0 : Rat) := by
    have hd' : (d : Rat) ≤ d' := by exact_mod_cast hle
    have ht0 : (s.t0 : Rat) ≤ s.now := by exact_mod_cast hi.t0Le
    push_cast
    linarith
  exact ⟨{ s with now := s.now + d' }, _, rfl,
    (holdLastsAtLeastTheSlotDuration { s with now := s.now + d' } hp).2 hover, rfl, rfl⟩

end Sys2Proof.Machine
end
